-- ==== Sys2Proof/Word.lean ====
section
/-! DEFINITION. The words of the BC7 block decoder: bytes, the 128-bit block (`00_scope.md` R1, R6), the 512-bit
output port (R6) and the RGBA8 texel (R11). -/

namespace Sys2Proof

/-- One byte of the block, of the tile or of host memory (`20_memory.md` R40). -/
abbrev Byte := BitVec 8

/-- One compressed block (`00_scope.md` R6, `BLOCK_BITS`). -/
abbrev Block := BitVec 128

/-- The output port `out_texels` (`00_scope.md` R6, `OUT_BITS`). -/
abbrev TileBits := BitVec 512

/-- One RGBA8 texel: channels 0 to 3 are R, G, B, A (`00_scope.md` R11). The same record holds an expanded endpoint. -/
structure Texel where
  r : Byte
  g : Byte
  b : Byte
  a : Byte
deriving DecidableEq, Repr, Inhabited

/-- A decoded tile: 16 texels, texel `t` at column `t mod 4` and row `t div 4` (`00_scope.md` R11). -/
abbrev Tile := List Texel

end Sys2Proof
end

