-- ==== Sys2Proof/Machine/Rom.lean ====
section
/-! DEFINITION. The read-only tables of the block (`10_state.md` R26): the mode descriptors (`30_encoding.md` R63), the
partition shapes and anchors (`41_partition.md` R123, R124, R127–R129) and the interpolation weights
(`44_interpolate.md` R180). No input and no reset changes them. -/

namespace Sys2Proof.Machine

/-- `pBitMode` of a mode descriptor (`30_encoding.md` R63, R65). -/
inductive PBitMode where
  /-- no P-bits are stored (modes 2, 4, 5) -/
  | none
  /-- one P-bit per subset (mode 1) -/
  | shared
  /-- one P-bit per endpoint (modes 0, 3, 6, 7) -/
  | perEndpoint
deriving DecidableEq, Repr

/-- The mode descriptor (`30_encoding.md` R63). -/
structure ModeDesc where
  partitionCount : Nat
  partitionBits : Nat
  rotationBits : Nat
  indexSelectionBits : Nat
  colorBits : Nat
  alphaBits : Nat
  pBitMode : PBitMode
  colorIndexBits : Nat
  alphaIndexBits : Nat
deriving DecidableEq, Repr

/-- `MODE[m]` (`30_encoding.md` R63). A number above 7 is no mode and has no row: the last arm has no fields. -/
def modeDesc : Nat → ModeDesc
  | 0 => ⟨3, 4, 0, 0, 4, 0, .perEndpoint, 3, 0⟩
  | 1 => ⟨2, 6, 0, 0, 6, 0, .shared, 3, 0⟩
  | 2 => ⟨3, 6, 0, 0, 5, 0, .none, 2, 0⟩
  | 3 => ⟨2, 6, 0, 0, 7, 0, .perEndpoint, 2, 0⟩
  | 4 => ⟨1, 0, 2, 1, 5, 6, .none, 2, 3⟩
  | 5 => ⟨1, 0, 2, 0, 7, 8, .none, 2, 2⟩
  | 6 => ⟨1, 0, 0, 0, 7, 7, .perEndpoint, 4, 0⟩
  | 7 => ⟨2, 6, 0, 0, 5, 5, .perEndpoint, 2, 0⟩
  | _ => ⟨0, 0, 0, 0, 0, 0, .none, 0, 0⟩

/-- Digit `t` of a table row written as 16 decimal digits with texel 0 first (`41_partition.md` R123, R124). -/
def rowDigit (row t : Nat) : Nat := row / 10 ^ (15 - t) % 10

/-- The two-subset shapes `P2`, a row for each partition, its 16 digits the subsets of texels 0 to 15
(`41_partition.md` R123). -/
def P2 : List Nat :=
  [0011001100110011, 0001000100010001, 0111011101110111, 0001001100110111] ++
  [0000000100010011, 0011011101111111, 0001001101111111, 0000000100110111] ++
  [0000000000010011, 0011011111111111, 0000000101111111, 0000000000010111] ++
  [0001011111111111, 0000000011111111, 0000111111111111, 0000000000001111] ++
  [0000100011101111, 0111000100000000, 0000000010001110, 0111001100010000] ++
  [0011000100000000, 0000100011001110, 0000000010001100, 0111001100110001] ++
  [0011000100010000, 0000100010001100, 0110011001100110, 0011011001101100] ++
  [0001011111101000, 0000111111110000, 0111000110001110, 0011100110011100] ++
  [0101010101010101, 0000111100001111, 0101101001011010, 0011001111001100] ++
  [0011110000111100, 0101010110101010, 0110100101101001, 0101101010100101] ++
  [0111001111001110, 0001001111001000, 0011001001001100, 0011101111011100] ++
  [0110100110010110, 0011110011000011, 0110011010011001, 0000011001100000] ++
  [0100111001000000, 0010011100100000, 0000001001110010, 0000010011100100] ++
  [0110110010010011, 0011011011001001, 0110001110011100, 0011100111000110] ++
  [0110110011001001, 0110001100111001, 0111111010000001, 0001100011100111] ++
  [0000111100110011, 0011001111110000, 0010001011101110, 0100010001110111]

/-- The mask column of `41_partition.md` R123: bit `t` is `P2[p][t]`. -/
def P2Mask : List Nat :=
  [0xCCCC, 0x8888, 0xEEEE, 0xECC8, 0xC880, 0xFEEC, 0xFEC8, 0xEC80] ++
  [0xC800, 0xFFEC, 0xFE80, 0xE800, 0xFFE8, 0xFF00, 0xFFF0, 0xF000] ++
  [0xF710, 0x008E, 0x7100, 0x08CE, 0x008C, 0x7310, 0x3100, 0x8CCE] ++
  [0x088C, 0x3110, 0x6666, 0x366C, 0x17E8, 0x0FF0, 0x718E, 0x399C] ++
  [0xAAAA, 0xF0F0, 0x5A5A, 0x33CC, 0x3C3C, 0x55AA, 0x9696, 0xA55A] ++
  [0x73CE, 0x13C8, 0x324C, 0x3BDC, 0x6996, 0xC33C, 0x9966, 0x0660] ++
  [0x0272, 0x04E4, 0x4E40, 0x2720, 0xC936, 0x936C, 0x39C6, 0x639C] ++
  [0x9336, 0x9CC6, 0x817E, 0xE718, 0xCCF0, 0x0FCC, 0x7744, 0xEE22]

/-- The three-subset shapes `P3` (`41_partition.md` R124). -/
def P3 : List Nat :=
  [0011001102212222, 0001001122112221, 0000200122112211, 0222002200110111] ++
  [0000000011221122, 0011001100220022, 0022002211111111, 0011001122112211] ++
  [0000000011112222, 0000111111112222, 0000111122222222, 0012001200120012] ++
  [0112011201120112, 0122012201220122, 0011011211221222, 0011200122002220] ++
  [0001001101121122, 0111001120012200, 0000112211221122, 0022002200221111] ++
  [0111011102220222, 0001000122212221, 0000001101220122, 0000110022102210] ++
  [0122012200110000, 0012001211222222, 0110122112210110, 0000011012211221] ++
  [0022110211020022, 0110011020022222, 0011012201220011, 0000200022112221] ++
  [0000000211221222, 0222002200120011, 0011001200220222, 0120012001200120] ++
  [0000111122220000, 0120120120120120, 0120201212010120, 0011220011220011] ++
  [0011112222000011, 0101010122222222, 0000000021212121, 0022112200221122] ++
  [0022001100220011, 0220122102201221, 0101222222220101, 0000212121212121] ++
  [0101010101012222, 0222011102220111, 0002111200021112, 0000211221122112] ++
  [0222011101110222, 0002111211120002, 0110011001102222, 0000000021122112] ++
  [0110011022222222, 0022001100110022, 0022112211220022, 0000000000002112] ++
  [0002000100020001, 0222122202221222, 0101222222222222, 0111201122012220]

/-- `A2`: the anchor of subset 1 for two-subset partitions (`41_partition.md` R127). -/
def A2 : List Nat :=
  [15, 15, 15, 15, 15, 15, 15, 15] ++
  [15, 15, 15, 15, 15, 15, 15, 15] ++
  [15, 2, 8, 2, 2, 8, 8, 15] ++
  [2, 8, 2, 2, 8, 8, 2, 2] ++
  [15, 15, 6, 8, 2, 8, 15, 15] ++
  [2, 8, 2, 2, 2, 15, 15, 6] ++
  [6, 2, 6, 8, 15, 15, 2, 2] ++
  [15, 15, 15, 15, 15, 2, 2, 15]

/-- `A3a`: the anchor of subset 1 for three-subset partitions (`41_partition.md` R128). -/
def A3a : List Nat :=
  [3, 3, 15, 15, 8, 3, 15, 15] ++
  [8, 8, 6, 6, 6, 5, 3, 3] ++
  [3, 3, 8, 15, 3, 3, 6, 10] ++
  [5, 8, 8, 6, 8, 5, 15, 15] ++
  [8, 15, 3, 5, 6, 10, 8, 15] ++
  [15, 3, 15, 5, 15, 15, 15, 15] ++
  [3, 15, 5, 5, 5, 8, 5, 10] ++
  [5, 10, 8, 13, 15, 12, 3, 3]

/-- `A3b`: the anchor of subset 2 for three-subset partitions (`41_partition.md` R129). -/
def A3b : List Nat :=
  [15, 8, 8, 3, 15, 15, 3, 8] ++
  [15, 15, 15, 15, 15, 15, 15, 8] ++
  [15, 8, 15, 3, 15, 8, 15, 8] ++
  [3, 15, 6, 10, 15, 15, 10, 8] ++
  [15, 3, 15, 10, 10, 8, 9, 10] ++
  [6, 15, 8, 15, 3, 6, 6, 8] ++
  [15, 3, 15, 15, 15, 15, 15, 15] ++
  [15, 15, 15, 15, 3, 15, 15, 8]

/-- The weights for 2-bit indices (`44_interpolate.md` R180). -/
def W2 : List Nat := [0, 21, 43, 64]

/-- The weights for 3-bit indices (`44_interpolate.md` R180). -/
def W3 : List Nat := [0, 9, 18, 27, 37, 46, 55, 64]

/-- The weights for 4-bit indices (`44_interpolate.md` R180). -/
def W4 : List Nat := [0, 4, 9, 13, 17, 21, 26, 30] ++ [34, 38, 43, 47, 51, 55, 60, 64]

end Sys2Proof.Machine
end

