-- ==== Sys2Proof/Syntax.lean ====
section
/-! DEFINITION. The instructions of the BC7 block decoder: the nine block layouts of `spec/opcode_table.json`, each
with its stored fields (`30_encoding.md` R62–R75, R79). Fields carry the widths of `30_encoding.md` R63. A list of
endpoint channels is in endpoint order 0, 1, … (R64); a list of P-bits is in field order (R65); a list of indices is
in texel order (R66, R67), each index zero-extended to the width of its set. -/

namespace Sys2Proof

/-- One block layout with its field values. -/
inductive Instr where
  /-- MODE0 (R68, R211): three subsets, RGB 4.4.4, a P-bit per endpoint, 3-bit indices. -/
  | mode0 (part : BitVec 4) (r g b : List (BitVec 4)) (p : List (BitVec 1)) (idx : List (BitVec 3))
  /-- MODE1 (R69, R212): two subsets, RGB 6.6.6, a P-bit per subset, 3-bit indices. -/
  | mode1 (part : BitVec 6) (r g b : List (BitVec 6)) (p : List (BitVec 1)) (idx : List (BitVec 3))
  /-- MODE2 (R70, R213): three subsets, RGB 5.5.5, no P-bits, 2-bit indices. -/
  | mode2 (part : BitVec 6) (r g b : List (BitVec 5)) (idx : List (BitVec 2))
  /-- MODE3 (R71, R214): two subsets, RGB 7.7.7, a P-bit per endpoint, 2-bit indices. -/
  | mode3 (part : BitVec 6) (r g b : List (BitVec 7)) (p : List (BitVec 1)) (idx : List (BitVec 2))
  /-- MODE4 (R72, R215): one subset, rotation, index selection, RGB 5.5.5, 6-bit alpha, a 2-bit primary and a
  3-bit secondary index set. -/
  | mode4 (rot : BitVec 2) (isel : BitVec 1) (r g b : List (BitVec 5)) (a : List (BitVec 6))
      (idx1 : List (BitVec 2)) (idx2 : List (BitVec 3))
  /-- MODE5 (R73, R216): one subset, rotation, RGB 7.7.7, 8-bit alpha, two 2-bit index sets. -/
  | mode5 (rot : BitVec 2) (r g b : List (BitVec 7)) (a : List (BitVec 8))
      (idx1 : List (BitVec 2)) (idx2 : List (BitVec 2))
  /-- MODE6 (R74, R217): one subset, RGBA 7.7.7.7, a P-bit per endpoint, 4-bit indices. -/
  | mode6 (r g b a : List (BitVec 7)) (p : List (BitVec 1)) (idx : List (BitVec 4))
  /-- MODE7 (R75, R218): two subsets, RGBA 5.5.5.5, a P-bit per endpoint, 2-bit indices. -/
  | mode7 (part : BitVec 6) (r g b a : List (BitVec 5)) (p : List (BitVec 1)) (idx : List (BitVec 2))
  /-- INVALID (R79, R219): the reserved mode; `rest` is `blk[127:8]`, which the decode ignores. -/
  | invalid (rest : BitVec 120)
deriving DecidableEq, Repr

/-- The field values of one block as unsigned integers, in the notation of `30_encoding.md` R81 (channel-major, as
they are stored): what the stages of `46_block_modes.md` R210 work on. A field the mode does not have is 0 or `[]`. -/
structure Fields where
  part : Nat := 0
  rot : Nat := 0
  isel : Nat := 0
  r : List Nat
  g : List Nat
  b : List Nat
  a : List Nat := []
  pbits : List Nat := []
  idx1 : List Nat
  idx2 : List Nat := []
deriving DecidableEq, Repr

end Sys2Proof
end

