-- ==== Sys2Proof/Machine/Operands.lean ====
section
/-! DEFINITION. Operand assembly: the partition shape decoder (`41_partition.md`), the endpoint unpacker with its P-bit
handler and bit expansion (`42_endpoints_pbits.md`), and the roles of the index sets (`43_index_unpack.md` R162). -/

namespace Sys2Proof.Machine

/-- The endpoint count `NE` (`42_endpoints_pbits.md` R140). -/
def ModeDesc.endpointCount (D : ModeDesc) : Nat := 2 * D.partitionCount

/-- The number of stored P-bits (`30_encoding.md` R63, R65). -/
def ModeDesc.pBitCount (D : ModeDesc) : Nat :=
  match D.pBitMode with
  | .none => 0
  | .shared => D.partitionCount
  | .perEndpoint => D.endpointCount

/-- The subset of texel `t` (`41_partition.md` R122). -/
def subsetOf (ns part t : Nat) : Nat :=
  match ns with
  | 2 => rowDigit (P2.getD part 0) t
  | 3 => rowDigit (P3.getD part 0) t
  | _ => 0

/-- The anchor texels, that of subset 0 first (`41_partition.md` R126). -/
def anchors (ns part : Nat) : List Nat :=
  match ns with
  | 2 => [0, A2.getD part 0]
  | 3 => [0, A3a.getD part 0, A3b.getD part 0]
  | _ => [0]

/-- Texel `t` is the anchor of some subset (`41_partition.md` R126, `AnchorSet`). -/
def isAnchor (ns part t : Nat) : Bool := (anchors ns part).contains t

/-- The P-bit of endpoint `e`, where the mode has P-bits (`42_endpoints_pbits.md` R142): in the shared mode the two
endpoints of subset `s` take P-bit field `s`. -/
def pBitOf (D : ModeDesc) (f : Fields) (e : Nat) : Option Nat :=
  match D.pBitMode with
  | .none => none
  | .shared => some (f.pbits.getD (e / 2) 0)
  | .perEndpoint => some (f.pbits.getD e 0)

/-- The P-bit join (`42_endpoints_pbits.md` R143): the P-bit becomes the new least significant bit, before expansion. -/
def joinPBit (raw : Nat) : Option Nat → Nat
  | none => raw
  | some p => raw <<< 1 ||| p

/-- The width of a channel after the P-bit join (`42_endpoints_pbits.md` R143, R145). -/
def joinedWidth (D : ModeDesc) (stored : Nat) : Nat :=
  match D.pBitMode with
  | .none => stored
  | _ => stored + 1

/-- Bit expansion to 8 bits (`42_endpoints_pbits.md` R144). -/
def expand (v n : Nat) : Nat :=
  if n = 8 then v else (v <<< (8 - n) ||| v >>> (2 * n - 8)) &&& 0xFF

/-- The expanded 8-bit value of one stored channel (`42_endpoints_pbits.md` R143, R144). -/
def expandChannel (D : ModeDesc) (stored raw : Nat) (p : Option Nat) : Byte :=
  BitVec.ofNat 8 (expand (joinPBit raw p) (joinedWidth D stored))

/-- The expanded endpoint `X[e]` (`42_endpoints_pbits.md` R143–R146): alpha is 255 where none is stored. -/
def endpoint (D : ModeDesc) (f : Fields) (e : Nat) : Texel :=
  let p := pBitOf D f e
  { r := expandChannel D D.colorBits (f.r.getD e 0) p
    g := expandChannel D D.colorBits (f.g.getD e 0) p
    b := expandChannel D D.colorBits (f.b.getD e 0) p
    a := if D.alphaBits = 0 then 255 else expandChannel D D.alphaBits (f.a.getD e 0) p }

/-- An index together with the width of the set it comes from (`43_index_unpack.md` R162). -/
structure IndexRole where
  index : Nat
  width : Nat
deriving DecidableEq, Repr

/-- The index of texel `t` in the primary set (`43_index_unpack.md` R160). -/
def primaryIndex (D : ModeDesc) (f : Fields) (t : Nat) : IndexRole := ⟨f.idx1.getD t 0, D.colorIndexBits⟩

/-- The index of texel `t` in the secondary set (`43_index_unpack.md` R161). -/
def secondaryIndex (D : ModeDesc) (f : Fields) (t : Nat) : IndexRole := ⟨f.idx2.getD t 0, D.alphaIndexBits⟩

/-- The index that drives R, G and B of texel `t` (`43_index_unpack.md` R162): `isel` swaps the sets of mode 4. -/
def colorIndex (D : ModeDesc) (f : Fields) (t : Nat) : IndexRole :=
  if D.alphaIndexBits = 0 then primaryIndex D f t
  else if f.isel = 0 then primaryIndex D f t
  else secondaryIndex D f t

/-- The index that drives A of texel `t` (`43_index_unpack.md` R162). -/
def alphaIndex (D : ModeDesc) (f : Fields) (t : Nat) : IndexRole :=
  if D.alphaIndexBits = 0 then primaryIndex D f t
  else if f.isel = 0 then secondaryIndex D f t
  else primaryIndex D f t

end Sys2Proof.Machine
end

