-- ==== Sys2Proof/Machine/Texels.lean ====
section
/-! DEFINITION. From operands to texels: the endpoint colour interpolator (`44_interpolate.md`), the rotation handler and
the RGBA8 output formatter (`45_rotation_output.md`), and the decode stages put together (`46_block_modes.md` R210). -/

namespace Sys2Proof.Machine

/-- The weight an index selects, by the width of its set (`44_interpolate.md` R180, R181). -/
def weight (i : IndexRole) : Nat :=
  match i.width with
  | 2 => W2.getD i.index 0
  | 3 => W3.getD i.index 0
  | 4 => W4.getD i.index 0
  | _ => 0

/-- `Interp(e0, e1, w)` (`44_interpolate.md` R182), exact before it is narrowed to the 8 bits it fits. -/
def interp (e0 e1 : Byte) (w : Nat) : Byte :=
  BitVec.ofNat 8 (((64 - w) * e0.toNat + w * e1.toNat + 32) >>> 6)

/-- The blend of a subset's two endpoints with a colour and an alpha weight (`44_interpolate.md` R183). -/
def blend (e0 e1 : Texel) (wC wA : Nat) : Texel :=
  { r := interp e0.r e1.r wC
    g := interp e0.g e1.g wC
    b := interp e0.b e1.b wC
    a := interp e0.a e1.a wA }

/-- Rotation (`45_rotation_output.md` R190): codes 1, 2 and 3 swap R, G and B with A. -/
def rotate (rot : Nat) (x : Texel) : Texel :=
  match rot with
  | 1 => { x with r := x.a, a := x.r }
  | 2 => { x with g := x.a, a := x.g }
  | 3 => { x with b := x.a, a := x.b }
  | _ => x

/-- Texel `t` before rotation (`44_interpolate.md` R183). -/
def blendedTexel (D : ModeDesc) (f : Fields) (t : Nat) : Texel :=
  let s := subsetOf D.partitionCount f.part t
  blend (endpoint D f (2 * s)) (endpoint D f (2 * s + 1))
    (weight (colorIndex D f t)) (weight (alphaIndex D f t))

/-- The tile of a block with descriptor `D` and fields `f` (`46_block_modes.md` R210). -/
def decodeTile (D : ModeDesc) (f : Fields) : Tile :=
  (List.range 16).map fun t => rotate f.rot (blendedTexel D f t)

/-- The fallback tile of the reserved mode (`45_rotation_output.md` R193): 16 texels (0, 0, 0, 0). -/
def fallbackTile : Tile := List.replicate 16 ⟨0, 0, 0, 0⟩

/-- The four bytes of a texel in channel order R, G, B, A (`20_memory.md` R43). -/
def texelBytes (x : Texel) : List Byte := [x.r, x.g, x.b, x.a]

/-- The 64 bytes of a tile: byte `4t + c` is channel `c` of texel `t` (`20_memory.md` R43). -/
def tileBytes (T : Tile) : List Byte := T.flatMap texelBytes

/-- The number whose little-endian bytes are the given ones (`20_memory.md` R41, R44). -/
def bytesToNat : List Byte → Nat
  | [] => 0
  | b :: bs => b.toNat + 256 * bytesToNat bs

/-- The RGBA8 output formatter (`45_rotation_output.md` R192): channel `c` of texel `t` on bits `32t + 8c + 7 : 32t + 8c`. -/
def formatTile (T : Tile) : TileBits := BitVec.ofNat 512 (bytesToNat (tileBytes T))

end Sys2Proof.Machine
end

