-- ==== Sys2Proof/WellFormed.lean ====
section
/-! DEFINITION. Which terms of `Instr` stand for a block: the field counts of `30_encoding.md` R63–R67 and the implicit
high bit 0 of every anchor index (`43_index_unpack.md` R163). The field widths are in the types. -/

namespace Sys2Proof

open Sys2Proof.Machine

/-- Every anchor texel's index is below half the range of its set (`43_index_unpack.md` R163), for `w`-bit indices. -/
def anchorsNarrow (ns part : Nat) {w : Nat} (idx : List (BitVec w)) : Bool :=
  (anchors ns part).all fun t => decide ((idx.getD t 0).toNat < 2 ^ (w - 1))

/-- An index set of 16 indices with every anchor narrow (`30_encoding.md` R66, R67). -/
def indexSetOk (ns part : Nat) {w : Nat} (idx : List (BitVec w)) : Bool :=
  idx.length == 16 && anchorsNarrow ns part idx

/-- The three colour channels have `ne` fields each (`30_encoding.md` R64). -/
def colorsOk (ne : Nat) {w : Nat} (r g b : List (BitVec w)) : Bool :=
  r.length == ne && g.length == ne && b.length == ne

/-- The term stands for a block of its mode (`30_encoding.md` R62–R67, R81). -/
def Instr.wf : Instr → Bool
  | .mode0 part r g b p idx => colorsOk 6 r g b && p.length == 6 && indexSetOk 3 part.toNat idx
  | .mode1 part r g b p idx => colorsOk 4 r g b && p.length == 2 && indexSetOk 2 part.toNat idx
  | .mode2 part r g b idx => colorsOk 6 r g b && indexSetOk 3 part.toNat idx
  | .mode3 part r g b p idx => colorsOk 4 r g b && p.length == 4 && indexSetOk 2 part.toNat idx
  | .mode4 _ _ r g b a idx1 idx2 =>
    colorsOk 2 r g b && a.length == 2 && indexSetOk 1 0 idx1 && indexSetOk 1 0 idx2
  | .mode5 _ r g b a idx1 idx2 =>
    colorsOk 2 r g b && a.length == 2 && indexSetOk 1 0 idx1 && indexSetOk 1 0 idx2
  | .mode6 r g b a p idx => colorsOk 2 r g b && a.length == 2 && p.length == 2 && indexSetOk 1 0 idx
  | .mode7 part r g b a p idx =>
    colorsOk 4 r g b && a.length == 4 && p.length == 4 && indexSetOk 2 part.toNat idx
  | .invalid _ => true

end Sys2Proof
end

