-- ==== Sys2Proof/Decode.lean ====
section
/-! DEFINITION. The mode selector, the bitstream reader (`40_mode_select_bitstream.md`) and the index-bit unpacker
(`43_index_unpack.md` R160, R161) as a total decoder from blocks to `Instr`, and the encoder of `30_encoding.md` R81. -/

namespace Sys2Proof

open Sys2Proof.Machine

/-- The mode selector (`40_mode_select_bitstream.md` R100): the lowest set bit among bits 0 to 7, or 8. -/
def modeSelect (blk : Nat) : Nat :=
  ((List.range 8).find? fun m => blk.testBit m).getD 8

/-- `ReadBits(n)` at cursor `cur` (`40_mode_select_bitstream.md` R102): the value and the advanced cursor. A field of
width 0 reads as 0 and moves nothing. -/
def readBits (blk cur n : Nat) : Nat × Nat := ((blk >>> cur) % 2 ^ n, cur + n)

/-- Successive `ReadBits` calls with the given widths (`40_mode_select_bitstream.md` R104). -/
def readFields (blk : Nat) : Nat → List Nat → List Nat × Nat
  | cur, [] => ([], cur)
  | cur, n :: ns =>
    let (v, cur') := readBits blk cur n
    let (vs, cur'') := readFields blk cur' ns
    (v :: vs, cur'')

/-- The widths of one colour channel's fields (`30_encoding.md` R64). -/
def colorWidths (D : ModeDesc) : List Nat := List.replicate D.endpointCount D.colorBits

/-- The widths of the alpha fields; none where `alphaBits` is 0 (`30_encoding.md` R64). -/
def alphaWidths (D : ModeDesc) : List Nat :=
  if D.alphaBits = 0 then [] else List.replicate D.endpointCount D.alphaBits

/-- The widths of the P-bit fields (`30_encoding.md` R65). -/
def pBitWidths (D : ModeDesc) : List Nat := List.replicate D.pBitCount 1

/-- The widths of the primary index fields, one bit narrower at each anchor (`30_encoding.md` R66). -/
def primaryWidths (D : ModeDesc) (part : Nat) : List Nat :=
  (List.range 16).map fun t =>
    if isAnchor D.partitionCount part t then D.colorIndexBits - 1 else D.colorIndexBits

/-- The widths of the secondary index fields, one bit narrower at texel 0; none where `alphaIndexBits` is 0
(`30_encoding.md` R67). -/
def secondaryWidths (D : ModeDesc) : List Nat :=
  if D.alphaIndexBits = 0 then []
  else (List.range 16).map fun t => if t = 0 then D.alphaIndexBits - 1 else D.alphaIndexBits

/-- The fields of a mode-`m` block in the read order of `40_mode_select_bitstream.md` R104, and where the cursor ends
(`10_state.md` R25). -/
def unpack (m blk : Nat) : Fields × Nat :=
  let D := modeDesc m
  let (_, c0) := readBits blk 0 (m + 1)
  let (part, c1) := readBits blk c0 D.partitionBits
  let (rot, c2) := readBits blk c1 D.rotationBits
  let (isel, c3) := readBits blk c2 D.indexSelectionBits
  let (r, c4) := readFields blk c3 (colorWidths D)
  let (g, c5) := readFields blk c4 (colorWidths D)
  let (b, c6) := readFields blk c5 (colorWidths D)
  let (a, c7) := readFields blk c6 (alphaWidths D)
  let (p, c8) := readFields blk c7 (pBitWidths D)
  let (idx1, c9) := readFields blk c8 (primaryWidths D part)
  let (idx2, c10) := readFields blk c9 (secondaryWidths D)
  ({ part := part, rot := rot, isel := isel, r := r, g := g, b := b, a := a, pbits := p, idx1 := idx1, idx2 := idx2 }, c10)

/-- Field values as bit vectors of the field's width. -/
def toWidth (w : Nat) (l : List Nat) : List (BitVec w) := l.map (BitVec.ofNat w)

/-- The instruction of mode `m` with the given fields (`30_encoding.md` R63, R79). Eight and above is no mode: those
numbers, which `decode` never gives it, answer INVALID. -/
def Instr.ofFields (m : Nat) (f : Fields) : Instr :=
  match m with
  | 0 => .mode0 (.ofNat 4 f.part) (toWidth 4 f.r) (toWidth 4 f.g) (toWidth 4 f.b) (toWidth 1 f.pbits) (toWidth 3 f.idx1)
  | 1 => .mode1 (.ofNat 6 f.part) (toWidth 6 f.r) (toWidth 6 f.g) (toWidth 6 f.b) (toWidth 1 f.pbits) (toWidth 3 f.idx1)
  | 2 => .mode2 (.ofNat 6 f.part) (toWidth 5 f.r) (toWidth 5 f.g) (toWidth 5 f.b) (toWidth 2 f.idx1)
  | 3 => .mode3 (.ofNat 6 f.part) (toWidth 7 f.r) (toWidth 7 f.g) (toWidth 7 f.b) (toWidth 1 f.pbits) (toWidth 2 f.idx1)
  | 4 => .mode4 (.ofNat 2 f.rot) (.ofNat 1 f.isel) (toWidth 5 f.r) (toWidth 5 f.g) (toWidth 5 f.b) (toWidth 6 f.a)
      (toWidth 2 f.idx1) (toWidth 3 f.idx2)
  | 5 => .mode5 (.ofNat 2 f.rot) (toWidth 7 f.r) (toWidth 7 f.g) (toWidth 7 f.b) (toWidth 8 f.a) (toWidth 2 f.idx1)
      (toWidth 2 f.idx2)
  | 6 => .mode6 (toWidth 7 f.r) (toWidth 7 f.g) (toWidth 7 f.b) (toWidth 7 f.a) (toWidth 1 f.pbits) (toWidth 4 f.idx1)
  | 7 => .mode7 (.ofNat 6 f.part) (toWidth 5 f.r) (toWidth 5 f.g) (toWidth 5 f.b) (toWidth 5 f.a) (toWidth 1 f.pbits)
      (toWidth 2 f.idx1)
  | _ => .invalid 0

/-- The decoder: every one of the 2^128 blocks is one instruction (`30_encoding.md` R79, R80). In the reserved mode no
field is read (`40_mode_select_bitstream.md` R106); the ignored bits `blk[127:8]` are kept as its operand. -/
def decode (blk : Block) : Instr :=
  let m := modeSelect blk.toNat
  if m = 8 then .invalid (blk.extractLsb' 8 120) else Instr.ofFields m (unpack m blk.toNat).1

/-- Why a byte string holds no block. -/
inductive DecodeError where
  /-- fewer than 16 bytes are there; every block is exactly 16 bytes (`30_encoding.md` R60). Raised by `decodeBytes`; safe. -/
  | truncated
deriving DecidableEq, Repr

/-- The block whose byte `k` is the `k`-th of the given bytes (`20_memory.md` R41). -/
def blockOfBytes (bs : List Byte) : Block := BitVec.ofNat 128 (bytesToNat bs)

/-- The instruction at the head of a byte string and the bytes after it. Total: a string of fewer than 16 bytes is
rejected by name (`30_encoding.md` R60). -/
def decodeBytes (bs : List Byte) : Except DecodeError (Instr × List Byte) :=
  if bs.length < 16 then .error .truncated else .ok (decode (blockOfBytes (bs.take 16)), bs.drop 16)

/-- The little-endian bytes of a number (`20_memory.md` R41): `n` bytes, the least significant first. -/
def natToBytes : Nat → Nat → List Byte
  | 0, _ => []
  | n + 1, w => BitVec.ofNat 8 w :: natToBytes n (w / 256)

/-- The instruction the decoder reads from an instruction word of `nbits` bits, every bit above them 0. -/
def decodeTableWord (nbits w : Nat) : Option Instr :=
  match decodeBytes (natToBytes 16 (w % 2 ^ nbits)) with
  | .ok (i, _) => some i
  | .error _ => none

/-- The mode number of an instruction: 8 for INVALID (`40_mode_select_bitstream.md` R100). -/
def Instr.mode : Instr → Nat
  | .mode0 .. => 0
  | .mode1 .. => 1
  | .mode2 .. => 2
  | .mode3 .. => 3
  | .mode4 .. => 4
  | .mode5 .. => 5
  | .mode6 .. => 6
  | .mode7 .. => 7
  | .invalid _ => 8

/-- The field values of an instruction as unsigned integers (`30_encoding.md` R78, R81). -/
def Instr.fields : Instr → Fields
  | .mode0 part r g b p idx =>
    { part := part.toNat, r := r.map (·.toNat), g := g.map (·.toNat), b := b.map (·.toNat)
      pbits := p.map (·.toNat), idx1 := idx.map (·.toNat) }
  | .mode1 part r g b p idx =>
    { part := part.toNat, r := r.map (·.toNat), g := g.map (·.toNat), b := b.map (·.toNat)
      pbits := p.map (·.toNat), idx1 := idx.map (·.toNat) }
  | .mode2 part r g b idx =>
    { part := part.toNat, r := r.map (·.toNat), g := g.map (·.toNat), b := b.map (·.toNat)
      idx1 := idx.map (·.toNat) }
  | .mode3 part r g b p idx =>
    { part := part.toNat, r := r.map (·.toNat), g := g.map (·.toNat), b := b.map (·.toNat)
      pbits := p.map (·.toNat), idx1 := idx.map (·.toNat) }
  | .mode4 rot isel r g b a idx1 idx2 =>
    { rot := rot.toNat, isel := isel.toNat, r := r.map (·.toNat), g := g.map (·.toNat), b := b.map (·.toNat)
      a := a.map (·.toNat), idx1 := idx1.map (·.toNat), idx2 := idx2.map (·.toNat) }
  | .mode5 rot r g b a idx1 idx2 =>
    { rot := rot.toNat, r := r.map (·.toNat), g := g.map (·.toNat), b := b.map (·.toNat)
      a := a.map (·.toNat), idx1 := idx1.map (·.toNat), idx2 := idx2.map (·.toNat) }
  | .mode6 r g b a p idx =>
    { r := r.map (·.toNat), g := g.map (·.toNat), b := b.map (·.toNat), a := a.map (·.toNat)
      pbits := p.map (·.toNat), idx1 := idx.map (·.toNat) }
  | .mode7 part r g b a p idx =>
    { part := part.toNat, r := r.map (·.toNat), g := g.map (·.toNat), b := b.map (·.toNat), a := a.map (·.toNat)
      pbits := p.map (·.toNat), idx1 := idx.map (·.toNat) }
  | .invalid _ => { r := [], g := [], b := [], idx1 := [] }

/-- Values packed at increasing bit positions without gaps, each in its width (`30_encoding.md` R62). -/
def pack : List (Nat × Nat) → Nat
  | [] => 0
  | (v, w) :: rest => v % 2 ^ w + 2 ^ w * pack rest

/-- The (value, width) pairs of a mode-`m` block in the field order of `30_encoding.md` R62, the mode bits first (R61). -/
def fieldLayout (m : Nat) (f : Fields) : List (Nat × Nat) :=
  let D := modeDesc m
  [(2 ^ m, m + 1), (f.part, D.partitionBits), (f.rot, D.rotationBits), (f.isel, D.indexSelectionBits)] ++
    f.r.zip (colorWidths D) ++ f.g.zip (colorWidths D) ++ f.b.zip (colorWidths D) ++
    f.a.zip (alphaWidths D) ++ f.pbits.zip (pBitWidths D) ++
    f.idx1.zip (primaryWidths D f.part) ++ f.idx2.zip (secondaryWidths D)

/-- The encoder: the block of an instruction, from the field order and widths of `30_encoding.md` R62, R63 and R81. -/
def encode (i : Instr) : Block :=
  match i with
  | .mode0 .. | .mode1 .. | .mode2 .. | .mode3 .. | .mode4 .. | .mode5 .. | .mode6 .. | .mode7 .. =>
    BitVec.ofNat 128 (pack (fieldLayout i.mode i.fields))
  | .invalid rest => rest ++ 0#8

/-- The 16 stored bytes of an instruction, byte 0 first (`20_memory.md` R41). -/
def encodeBytes (i : Instr) : List Byte := natToBytes 16 (encode i).toNat

/-- The tile of an instruction (`46_block_modes.md` R210, R219). -/
def Instr.tile (i : Instr) : Tile :=
  match i with
  | .mode0 .. | .mode1 .. | .mode2 .. | .mode3 .. | .mode4 .. | .mode5 .. | .mode6 .. | .mode7 .. =>
    decodeTile (modeDesc i.mode) i.fields
  | .invalid _ => fallbackTile

/-- `DecodeBlock(blk)` (`46_block_modes.md` R210). -/
def decodeBlock (blk : Block) : Tile := (decode blk).tile

end Sys2Proof
end

