-- ==== Sys2Proof/Machine/Ports.lean ====
section
/-! DEFINITION. What crosses the machine's boundary in one clock cycle: the ports of `10_state.md` R27, the driver call of
`47_image_driver.md` R230, and other agents' writes to host memory (`70_reset_and_hazards.md` R291). -/

namespace Sys2Proof.Machine

/-- The operands of one `DecodeImage` call (`47_image_driver.md` R230): buffer addresses, image size in texels, and the
distance in bytes between destination rows. -/
structure Call where
  src : Nat
  w : Nat
  h : Nat
  dst : Nat
  pitch : Nat
deriving DecidableEq, Repr, Inhabited

/-- What the environment supplies in one cycle. -/
structure Inputs where
  /-- `rst`: synchronous reset, active high (`10_state.md` R27). -/
  rst : Bool
  /-- `in_valid`: the producer offers a block (R27). While a driver call is in progress: the driver may offer. -/
  inValid : Bool
  /-- `in_block`: the offered block (R27). While a driver call is in progress the driver drives this port. -/
  inBlock : Block
  /-- `out_ready`: the consumer can take the texels (R27). While a driver call is in progress: the driver may take. -/
  outReady : Bool
  /-- A driver call issued to the host in this cycle (`47_image_driver.md` R230). -/
  call : Option Call
  /-- Bytes that agents other than the driver write to host memory in this cycle (`70_reset_and_hazards.md` R291). -/
  hostWrites : List Host.Cell
deriving DecidableEq, Repr, Inhabited

/-- The output ports in one cycle (`10_state.md` R27). -/
structure Outputs where
  inReady : Bool
  outValid : Bool
  outTexels : TileBits
deriving DecidableEq, Repr

end Sys2Proof.Machine
end

