-- ==== Sys2Proof/Config.lean ====
section
/-! DEFINITION. What an implementation fixes and what the spec leaves open: the open parameters of `00_scope.md` R7 and the
unspecified values of `93_implementation_defined.md`. The constants without a body are free: nothing constrains them, so
a claim about the model holds for every value of them. -/

namespace Sys2Proof.Config

/-- `MAX_INFLIGHT` less 1 (`00_scope.md` R7, U6): free. -/
opaque maxInflightLess1 : Nat

/-- `MAX_INFLIGHT`, an integer ≥ 1 (`00_scope.md` R7). -/
def maxInflight : Nat := maxInflightLess1 + 1

/-- `ADDR_BITS` less 1 (`00_scope.md` R7, U8): free. -/
opaque addrBitsLess1 : Nat

/-- `ADDR_BITS`, an integer ≥ 1 (`00_scope.md` R7). -/
def addrBits : Nat := addrBitsLess1 + 1

/-- `DECODE_LATENCY` less 1 of each transaction (`70_reset_and_hazards.md` R287, U5): free, and it may differ from one
transaction to the next. -/
opaque extraLatency : Nat → Nat

/-- `out_texels` where no rule gives it a value (`70_reset_and_hazards.md` R284, U3): free. Argument 0 is the value that
stands in the state after reset, `n + 1` that of cycle `n`. -/
opaque freeTexels : Nat → TileBits

/-- What the environment does in cycle `n` where nothing has been listed for it (`70_reset_and_hazards.md` R283: the ports
"may be driven to any value in any cycle"): free. -/
opaque freeInputs : Nat → Machine.Inputs

/-- The byte the driver reads in cycle `n` at address `a` when another agent has written it during the call
(`70_reset_and_hazards.md` R291, U11): free. -/
opaque racedByte : Nat → Nat → Byte

end Sys2Proof.Config
end

