-- ==== Sys2Proof/Machine/State.lean ====
section
/-! DEFINITION. The state of the machine (`10_state.md`, `70_reset_and_hazards.md` R289, `47_image_driver.md`), its fault and
refusal reasons, and the state after reset. -/

namespace Sys2Proof.Machine

/-- One accepted and undelivered block (`10_state.md` R28, `70_reset_and_hazards.md` R289). -/
structure Entry where
  /-- the block captured at acceptance (`20_memory.md` R54) -/
  blk : Block
  /-- the texels decoded from it (`10_state.md` R28) -/
  tile : Tile
  /-- the cycle at whose end it was accepted (`70_reset_and_hazards.md` R289, `n_acc`) -/
  nAcc : Nat
  /-- its latency (`70_reset_and_hazards.md` R287) -/
  lat : Nat
deriving DecidableEq, Repr

/-- Host memory (`20_memory.md` R40): the bytes that hold a value, addresses strictly rising. -/
abbrev Memory := List Host.Cell

/-- A driver call in progress and the driver's local variables (`47_image_driver.md` R232, R242). -/
structure Driver where
  call : Call
  /-- the number of the next block to give to the decoder (`47_image_driver.md` R232) -/
  offered : Nat
  /-- the number of the next tile to scatter (`47_image_driver.md` R241) -/
  stored : Nat
  /-- addresses that other agents have written since the call began (`70_reset_and_hazards.md` R291) -/
  raced : List Nat
deriving DecidableEq, Repr

/-- The machine: the block, the host procedure that uses it, and the inputs still to come. -/
structure State where
  /-- the in-flight queue `Q`, oldest entry first (`10_state.md` R28) -/
  queue : List Entry
  /-- the cycle number `n` (`70_reset_and_hazards.md` R289) -/
  cycle : Nat
  /-- the number `j` of the next transaction (`70_reset_and_hazards.md` R289) -/
  accepted : Nat
  /-- the parameter `MAX_INFLIGHT` (`00_scope.md` R7) -/
  maxInflight : Nat
  /-- the parameter `DECODE_LATENCY`: the latencies of transactions 0, 1, … less 1; past the list's end they are
  `Config.extraLatency` (`00_scope.md` R7, `70_reset_and_hazards.md` R287) -/
  latencies : List Nat
  /-- the parameter `ADDR_BITS` (`00_scope.md` R7) -/
  addrBits : Nat
  /-- what the output ports carried in the cycle that the last step ended (`10_state.md` R27) -/
  out : Outputs
  /-- what the environment does in this cycle and the next ones; past the list's end it is `Config.freeInputs` -/
  inputs : List Inputs
  /-- driver calls issued and not yet begun, in the order of issue (`47_image_driver.md` R230) -/
  calls : List Call
  /-- the driver call in progress -/
  driver : Option Driver
  /-- host memory (`20_memory.md` R40) -/
  mem : Memory
deriving DecidableEq, Repr

/-- Why the machine stops. The decoder itself never does (`60_exceptions.md` R250). -/
inductive Fault where
  /-- the driver reads host byte `addr`, which holds no value. Raised by the fetch of a driver's source block; safe. The
  contract check of `47_image_driver.md` R231 item 4 keeps every call that begins from it. -/
  | unreadableByte (addr : Nat)
deriving DecidableEq, Repr

/-- The precondition a driver call breaks (`47_image_driver.md` R231, R240). -/
inductive Violation where
  /-- R231 item 1 -/
  | width
  /-- R231 item 2 -/
  | height
  /-- R231 item 3 -/
  | pitch
  /-- R231 items 5 and 6, for the destination buffer -/
  | destination
  /-- R231 items 4 and 6, for the compressed buffer -/
  | source
  /-- R240 -/
  | overlap
deriving DecidableEq, Repr

/-- Why the model gives no meaning. -/
inductive Refusal where
  /-- the instruction has no meaning yet. Raised by no arm of `exec`; safe. -/
  | notModelled (mnemonic : String)
  /-- the driver call breaks its contract, and "a model treats it as `refuse`" (`60_exceptions.md` R258,
  `47_image_driver.md` R235, R240). Raised at the start of the call; safe. -/
  | outOfContract (why : Violation)
deriving DecidableEq, Repr

/-- The machine right after reset (`10_state.md` R30): `Q` empty, and the ports as they were in the reset cycle. -/
def State.reset : State where
  queue := []
  cycle := 0
  accepted := 0
  maxInflight := Config.maxInflight
  latencies := []
  addrBits := Config.addrBits
  out := { inReady := false, outValid := false, outTexels := Config.freeTexels 0 }
  inputs := []
  calls := []
  driver := none
  mem := []

end Sys2Proof.Machine
end

