-- ==== Sys2Proof/Machine/Memory.lean ====
section
/-! DEFINITION. Host memory (`20_memory.md` R40, `47_image_driver.md` R242): single bytes, in one canonical form. -/

namespace Sys2Proof.Machine

/-- `MemRead(a, 1)` (`47_image_driver.md` R242): the byte at `a`, or none where nothing has been written. This is what an
unlisted address reads as. -/
def Memory.read : Memory → Nat → Option Byte
  | [], _ => none
  | (b, v) :: m, a => if a = b then some v else Memory.read m a

/-- `MemWrite(a, 1, v)` (`47_image_driver.md` R242): it keeps the addresses strictly rising. -/
def Memory.write : Memory → Nat → Byte → Memory
  | [], a, v => [(a, v)]
  | (b, u) :: m, a, v =>
    if a < b then (a, v) :: (b, u) :: m
    else if a = b then (a, v) :: m
    else (b, u) :: Memory.write m a v

/-- The canonical form: addresses strictly rising. (An unlisted address has no value, so no entry can equal it.) -/
def Memory.wf : Memory → Bool
  | [] => true
  | [_] => true
  | (a, _) :: (b, v) :: m => decide (a < b) && Memory.wf ((b, v) :: m)

/-- Successive writes. -/
def Memory.writeAll (m : Memory) (l : List Host.Cell) : Memory := l.foldl (fun m c => m.write c.1 c.2) m

/-- Other agents' writes: a byte outside the address space does not exist and is not written
(`47_image_driver.md` R242). -/
def Memory.hostWrite (addrBits : Nat) (m : Memory) (l : List Host.Cell) : Memory :=
  m.writeAll (l.filter fun c => decide (c.1 < 2 ^ addrBits))

end Sys2Proof.Machine
end

