-- ==== Sys2Proof/Machine/Ops.lean ====
section
/-! DEFINITION. The block's operations over its state: what the ports carry in a cycle, acceptance, delivery and reset
(`70_reset_and_hazards.md`). The hardware has no exception, so there is no exception entry and no return from one
(`60_exceptions.md` R250, R255, R256); flags do not exist either (`10_state.md` R23). -/

namespace Sys2Proof.Machine

/-- What the environment does in this cycle: the next listed element, or a free value where none is listed. -/
def State.envInputs (s : State) : Inputs :=
  match s.inputs with
  | [] => Config.freeInputs s.cycle
  | p :: _ => p

/-- The port `rst` in this cycle (`10_state.md` R27). -/
def State.rst (s : State) : Bool := s.envInputs.rst

/-- How many more blocks `Q` can take (`70_reset_and_hazards.md` R288). -/
def State.room (s : State) : Nat := s.maxInflight - s.queue.length

/-- The port `in_ready` in this cycle: 1 exactly when `rst` is 0 and `Q` holds fewer than `MAX_INFLIGHT` entries
(`70_reset_and_hazards.md` R280, R288). -/
def State.inReady (s : State) : Bool := !s.rst && s.room != 0

/-- The entry has waited its latency (`70_reset_and_hazards.md` R287, R289). -/
def Entry.due (e : Entry) (n : Nat) : Bool := decide (e.nAcc + e.lat ≤ n)

/-- The port `out_valid` in this cycle (`70_reset_and_hazards.md` R280, R284). -/
def State.outValid (s : State) : Bool :=
  !s.rst && match s.queue with
    | [] => false
    | e :: _ => e.due s.cycle

/-- The port `out_texels` in this cycle: the oldest tile while `out_valid` is 1, otherwise a free value
(`70_reset_and_hazards.md` R284). -/
def State.outTexels (s : State) : TileBits :=
  match s.outValid, s.queue with
  | true, e :: _ => formatTile e.tile
  | _, _ => Config.freeTexels (s.cycle + 1)

/-- The output ports in this cycle (`70_reset_and_hazards.md` R289). -/
def State.outputs (s : State) : Outputs :=
  { inReady := s.inReady, outValid := s.outValid, outTexels := s.outTexels }

/-- The latency of the next transaction, at least 1 (`70_reset_and_hazards.md` R287). -/
def State.latency (s : State) : Nat := s.latencies.getD s.accepted (Config.extraLatency s.accepted) + 1

/-- Acceptance of a block that decodes to `tile` (`70_reset_and_hazards.md` R283, R289): the block is captured and its
entry appended to `Q`. Where `in_ready` is 0 the offer is not taken and nothing changes (R285, R288). -/
def accept (blk : Block) (tile : Tile) (s : State) : Host.Outcome State Fault Refusal :=
  if s.inReady then
    .next { s with
      queue := s.queue ++ [{ blk := blk, tile := tile, nAcc := s.cycle, lat := s.latency }]
      accepted := s.accepted + 1 }
  else .next s

/-- What every clock edge does besides its transfers: the outputs of the cycle are kept, the cycle number advances, the
environment's inputs move on, issued calls reach the host, and other agents' writes land and are noted by a call in
progress (`70_reset_and_hazards.md` R289, R291). `p` is what the environment did in the cycle, `o` what the ports carried. -/
def State.tick (s : State) (p : Inputs) (o : Outputs) : State :=
  { s with
    cycle := s.cycle + 1
    out := o
    inputs := s.inputs.tail
    calls := s.calls ++ p.call.toList
    driver := s.driver.map fun d => { d with raced := d.raced ++ p.hostWrites.map (·.1) }
    mem := Memory.hostWrite s.addrBits s.mem p.hostWrites }

/-- The edge that ends a cycle with `rst` = 1 (`70_reset_and_hazards.md` R280): `Q` becomes empty, and the other inputs of
the block are ignored. -/
def State.resetEdge (s : State) : State := ({ s with queue := [] }).tick s.envInputs s.outputs

end Sys2Proof.Machine
end

