-- ==== Sys2Proof/Machine/Modes.lean ====
section
/-! DEFINITION. The meanings of the nine block layouts (`46_block_modes.md` R211–R219). Each decodes its block to 16 texels
and enters them in the in-flight queue at the acceptance edge (`70_reset_and_hazards.md` R283, R289); nothing else
changes (`20_memory.md` R47). -/

namespace Sys2Proof.Machine

/-- MODE0 (`46_block_modes.md` R211). -/
def execMode0 (part : BitVec 4) (r g b : List (BitVec 4)) (p : List (BitVec 1)) (idx : List (BitVec 3)) (s : State) :
    Host.Outcome State Fault Refusal :=
  accept (encode (.mode0 part r g b p idx)) (decodeTile (modeDesc 0) (Instr.mode0 part r g b p idx).fields) s

/-- MODE1 (`46_block_modes.md` R212). -/
def execMode1 (part : BitVec 6) (r g b : List (BitVec 6)) (p : List (BitVec 1)) (idx : List (BitVec 3)) (s : State) :
    Host.Outcome State Fault Refusal :=
  accept (encode (.mode1 part r g b p idx)) (decodeTile (modeDesc 1) (Instr.mode1 part r g b p idx).fields) s

/-- MODE2 (`46_block_modes.md` R213). -/
def execMode2 (part : BitVec 6) (r g b : List (BitVec 5)) (idx : List (BitVec 2)) (s : State) :
    Host.Outcome State Fault Refusal :=
  accept (encode (.mode2 part r g b idx)) (decodeTile (modeDesc 2) (Instr.mode2 part r g b idx).fields) s

/-- MODE3 (`46_block_modes.md` R214). -/
def execMode3 (part : BitVec 6) (r g b : List (BitVec 7)) (p : List (BitVec 1)) (idx : List (BitVec 2)) (s : State) :
    Host.Outcome State Fault Refusal :=
  accept (encode (.mode3 part r g b p idx)) (decodeTile (modeDesc 3) (Instr.mode3 part r g b p idx).fields) s

/-- MODE4 (`46_block_modes.md` R215). -/
def execMode4 (rot : BitVec 2) (isel : BitVec 1) (r g b : List (BitVec 5)) (a : List (BitVec 6))
    (idx1 : List (BitVec 2)) (idx2 : List (BitVec 3)) (s : State) : Host.Outcome State Fault Refusal :=
  accept (encode (.mode4 rot isel r g b a idx1 idx2))
    (decodeTile (modeDesc 4) (Instr.mode4 rot isel r g b a idx1 idx2).fields) s

/-- MODE5 (`46_block_modes.md` R216). -/
def execMode5 (rot : BitVec 2) (r g b : List (BitVec 7)) (a : List (BitVec 8)) (idx1 idx2 : List (BitVec 2)) (s : State) :
    Host.Outcome State Fault Refusal :=
  accept (encode (.mode5 rot r g b a idx1 idx2)) (decodeTile (modeDesc 5) (Instr.mode5 rot r g b a idx1 idx2).fields) s

/-- MODE6 (`46_block_modes.md` R217). -/
def execMode6 (r g b a : List (BitVec 7)) (p : List (BitVec 1)) (idx : List (BitVec 4)) (s : State) :
    Host.Outcome State Fault Refusal :=
  accept (encode (.mode6 r g b a p idx)) (decodeTile (modeDesc 6) (Instr.mode6 r g b a p idx).fields) s

/-- MODE7 (`46_block_modes.md` R218). -/
def execMode7 (part : BitVec 6) (r g b a : List (BitVec 5)) (p : List (BitVec 1)) (idx : List (BitVec 2)) (s : State) :
    Host.Outcome State Fault Refusal :=
  accept (encode (.mode7 part r g b a p idx)) (decodeTile (modeDesc 7) (Instr.mode7 part r g b a p idx).fields) s

/-- INVALID, the reserved mode (`46_block_modes.md` R219, `60_exceptions.md` R251): an ordinary transaction whose tile is
the fallback of `45_rotation_output.md` R193. -/
def execInvalid (rest : BitVec 120) (s : State) : Host.Outcome State Fault Refusal :=
  accept (encode (.invalid rest)) fallbackTile s

end Sys2Proof.Machine
end

