-- ==== Sys2Proof/Machine/Dispatch.lean ====
section
/-! DEFINITION. One meaning for each instruction (`46_block_modes.md` R211–R219). -/

namespace Sys2Proof.Machine

def exec (i : Instr) (s : State) : Host.Outcome State Fault Refusal :=
  match i with
  | .mode0 part r g b p idx => Sys2Proof.Machine.execMode0 part r g b p idx s
  | .mode1 part r g b p idx => Sys2Proof.Machine.execMode1 part r g b p idx s
  | .mode2 part r g b idx => Sys2Proof.Machine.execMode2 part r g b idx s
  | .mode3 part r g b p idx => Sys2Proof.Machine.execMode3 part r g b p idx s
  | .mode4 rot isel r g b a idx1 idx2 => Sys2Proof.Machine.execMode4 rot isel r g b a idx1 idx2 s
  | .mode5 rot r g b a idx1 idx2 => Sys2Proof.Machine.execMode5 rot r g b a idx1 idx2 s
  | .mode6 r g b a p idx => Sys2Proof.Machine.execMode6 r g b a p idx s
  | .mode7 part r g b a p idx => Sys2Proof.Machine.execMode7 part r g b a p idx s
  | .invalid rest => Sys2Proof.Machine.execInvalid rest s

end Sys2Proof.Machine
end

