-- ==== Sys2Proof/Machine/Driver.lean ====
section
/-! DEFINITION. The image driver (`47_image_driver.md`): its contract, its addresses, its use of the block's ports, and
the whole procedure as a function of memory. -/

namespace Sys2Proof.Machine

/-- Blocks in one block row (`47_image_driver.md` R232). -/
def Call.rowBlocks (c : Call) : Nat := c.w / 4

/-- Blocks of the image (`47_image_driver.md` R230, R232). -/
def Call.blocks (c : Call) : Nat := c.w / 4 * (c.h / 4)

/-- `NB`, the bytes of the compressed buffer (`47_image_driver.md` R230). -/
def Call.srcBytes (c : Call) : Nat := 16 * c.blocks

/-- The bytes of the destination buffer (`47_image_driver.md` R230). -/
def Call.dstBytes (c : Call) : Nat := c.pitch * c.h

/-- The image is empty (`47_image_driver.md` R238). -/
def Call.isEmpty (c : Call) : Bool := c.w == 0 || c.h == 0

/-- The address of byte `i` of block `k` (`47_image_driver.md` R232, R236). -/
def Call.srcAddr (c : Call) (k i : Nat) : Nat := c.src + 16 * k + i

/-- The address of channel `ch` of texel `t` of the tile of block `k` (`47_image_driver.md` R233), with
`bx = k mod (W/4)` and `by = k div (W/4)`. -/
def Call.dstAddr (c : Call) (k t ch : Nat) : Nat :=
  c.dst + (4 * (k / c.rowBlocks) + t / 4) * c.pitch + (4 * (k % c.rowBlocks) + t % 4) * 4 + ch

/-- All bytes of a buffer exist (`47_image_driver.md` R231 items 5 and 6). -/
def bufferExists (addrBits base len : Nat) : Bool := len == 0 || decide (base + len ≤ 2 ^ addrBits)

/-- Every byte of a buffer holds a value (`47_image_driver.md` R231 item 4). -/
def bufferReadable (m : Memory) (base len : Nat) : Bool :=
  (List.range len).all fun j => (m.read (base + j)).isSome

/-- Two buffers share no byte (`47_image_driver.md` R240). -/
def buffersDisjoint (a aLen b bLen : Nat) : Bool :=
  aLen == 0 || bLen == 0 || decide (a + aLen ≤ b) || decide (b + bLen ≤ a)

/-- The first precondition of `47_image_driver.md` R231 and R240 that the call breaks, if any. Its operands come first: a width
or height that is no multiple of 4 or a pitch below `4*W` is refused (`60_exceptions.md` R258), for an empty image too (log
entry 27). An empty image then needs no buffer (R238). The order of the checks is log entry 26. -/
def Call.violation (c : Call) (addrBits : Nat) (m : Memory) : Option Violation :=
  if c.w % 4 ≠ 0 then some .width
  else if c.h % 4 ≠ 0 then some .height
  else if c.pitch < 4 * c.w then some .pitch
  else if c.isEmpty then none
  else if !bufferExists addrBits c.dst c.dstBytes then some .destination
  else if !(bufferExists addrBits c.src c.srcBytes && bufferReadable m c.src c.srcBytes) then some .source
  else if !buffersDisjoint c.src c.srcBytes c.dst c.dstBytes then some .overlap
  else none

/-- The 64 byte writes that scatter the tile of block `k`, in the order of `47_image_driver.md` R233. -/
def Call.tileCells (c : Call) (k : Nat) (T : Tile) : List Host.Cell :=
  (List.range 64).map fun j => (c.dstAddr k (j / 4) (j % 4), (tileBytes T).getD j 0)

/-- The scatter of a decoded tile (`47_image_driver.md` R233). -/
def Call.scatter (c : Call) (m : Memory) (k : Nat) (T : Tile) : Memory := m.writeAll (c.tileCells k T)

/-- Block `k` of the compressed buffer (`47_image_driver.md` R232). A byte without a value counts as 0 here; no call in
contract has one. -/
def Call.blockAt (c : Call) (m : Memory) (k : Nat) : Block :=
  blockOfBytes ((List.range 16).map fun i => (m.read (c.srcAddr k i)).getD 0)

/-- One turn of the driver's loop: read block `k`, decode it, scatter its tile (`47_image_driver.md` R232, R233). -/
def Call.doBlock (c : Call) (m : Memory) (k : Nat) : Memory := c.scatter m k (decodeBlock (c.blockAt m k))

/-- The driver's loop over the given block numbers. `47_image_driver.md` R232 takes them in the order 0, 1, …; any order
is a sharding of the call (R237). -/
def Call.doBlocks (c : Call) (m : Memory) (ks : List Nat) : Memory := ks.foldl c.doBlock m

/-- The whole procedure `DecodeImage` as a function of host memory, with no other agent acting
(`47_image_driver.md` R230–R236). -/
def decodeImage (addrBits : Nat) (c : Call) (m : Memory) : Except Violation Memory :=
  match c.violation addrBits m with
  | some v => .error v
  | none => .ok (c.doBlocks m (List.range c.blocks))

/-- A call begins now: one has been issued, none is in progress, and no block of another user is in flight, so that the
`k`-th tile the driver receives is that of block `k` (`47_image_driver.md` R241). -/
def State.callStarts (s : State) : Bool :=
  match s.driver, s.calls, s.queue with
  | none, _ :: _, [] => true
  | _, _, _ => false

/-- The start of the oldest issued call (`47_image_driver.md` R230, R235, R238): refused where it is out of contract;
complete at once where the image is empty. It takes no clock edge. -/
def startCall (s : State) : Host.Outcome State Fault Refusal :=
  match s.calls with
  | [] => .next s
  | c :: rest =>
    match c.violation s.addrBits s.mem with
    | some v => .refused (.outOfContract v)
    | none => .next { s with
        calls := rest
        driver := if c.blocks = 0 then none else some { call := c, offered := 0, stored := 0, raced := [] } }

/-- Another agent has written the byte at `a` during the call, this cycle included (`70_reset_and_hazards.md` R291). -/
def State.racing (s : State) (d : Driver) (a : Nat) : Bool :=
  d.raced.contains a || (s.envInputs.hostWrites.map (·.1)).contains a

/-- One byte of the driver's source (`47_image_driver.md` R232): a byte another agent writes during the call reads as a
free value (`70_reset_and_hazards.md` R291). -/
def fetchByte (s : State) (d : Driver) (a : Nat) : Except Fault Byte :=
  if s.racing d a then .ok (Config.racedByte s.cycle a)
  else
    match s.mem.read a with
    | some v => .ok v
    | none => .error (.unreadableByte a)

/-- The bytes at the given addresses, in order. -/
def fetchBytes (s : State) (d : Driver) : List Nat → Except Fault (List Byte)
  | [] => .ok []
  | a :: as =>
    match fetchByte s d a with
    | .error f => .error f
    | .ok v =>
      match fetchBytes s d as with
      | .error f => .error f
      | .ok vs => .ok (v :: vs)

/-- The block the driver offers next (`47_image_driver.md` R232). -/
def fetchBlock (s : State) (d : Driver) : Except Fault Block :=
  match fetchBytes s d ((List.range 16).map (d.call.srcAddr d.offered)) with
  | .error f => .error f
  | .ok bs => .ok (blockOfBytes bs)

/-- The block on offer in this cycle, if `in_valid` is 1: the environment's, or the driver's next block while a call is in
progress (`10_state.md` R27, `47_image_driver.md` R241). -/
def State.offer (s : State) : Except Fault (Option Block) :=
  if s.envInputs.inValid then
    match s.driver with
    | none => .ok (some s.envInputs.inBlock)
    | some d =>
      if d.offered < d.call.blocks then
        match fetchBlock s d with
        | .error f => .error f
        | .ok b => .ok (some b)
      else .ok none
  else .ok none

/-- An output transfer happens at this cycle's edge (`70_reset_and_hazards.md` R283). -/
def State.delivers (s : State) : Bool := s.outValid && s.envInputs.outReady

/-- The driver's source cursor after an offered block was accepted (`47_image_driver.md` R236). -/
def State.noteAccepted (s : State) : State :=
  { s with driver := s.driver.map fun d => { d with offered := d.offered + 1 } }

/-- The driver receives a tile (`47_image_driver.md` R233, R241): it is scattered as the tile of block `stored`, and the
call is complete when that was the last. Without a call in progress the tile goes to the environment. -/
def State.receive (s : State) (T : Tile) : State :=
  match s.driver with
  | none => s
  | some d =>
    { s with
      mem := d.call.scatter s.mem d.stored T
      driver := if d.stored + 1 < d.call.blocks then some { d with stored := d.stored + 1 } else none }

/-- Delivery of the oldest tile (`70_reset_and_hazards.md` R283, R289). -/
def State.deliverHead (s : State) : State :=
  match s.queue with
  | [] => s
  | e :: q => ({ s with queue := q }).receive e.tile

/-- The rest of a clock edge with `rst` = 0, after the acceptance (`70_reset_and_hazards.md` R289, R293). `s0` is the state
in which the cycle began, whose ports decide the transfers; `offered` says a block was on offer; `s` is the state with the
accepted block, if any, in `Q`. -/
def State.clockEdge (s0 : State) (offered : Bool) (s : State) : State :=
  let s1 := if offered && s0.inReady then s.noteAccepted else s
  let s2 := if s0.delivers then s1.deliverHead else s1
  s2.tick s0.envInputs s0.outputs

end Sys2Proof.Machine
end

