-- ==== Sys2Proof/Machine/Step.lean ====
section
/-! DEFINITION. One step of the machine: the start of a driver call, or one clock cycle (`70_reset_and_hazards.md` R289). -/

namespace Sys2Proof.Machine

/-- One clock cycle with `rst` = 0: the block on offer, if any, is decoded and executed, and the edge ends the cycle
(`70_reset_and_hazards.md` R289). -/
def runCycle (s : State) : Host.Outcome State Fault Refusal :=
  match s.offer with
  | .error f => .fault f
  | .ok none => .next (s.clockEdge false s)
  | .ok (some b) =>
    match exec (decode b) s with
    | .next t => .next (s.clockEdge true t)
    | .fault f => .fault f
    | .refused r => .refused r

/-- One step: a driver call begins if one can, between clock edges; otherwise one clock cycle passes, with `rst` = 1
overriding both transfers (`60_exceptions.md` R254, `70_reset_and_hazards.md` R280, R289). -/
def step (s : State) : Host.Outcome State Fault Refusal :=
  if s.callStarts then startCall s
  else if s.rst then .next s.resetEdge
  else runCycle s

/-- The state in which the block with the low bits `w` is on offer in this cycle: the environment's inputs of the cycle
put it on `in_block` with `in_valid` = 1 and `rst` = 0. No driver call may own the ports and `Q` must have room, so a call
in progress or waiting is taken away, and a `Q` that is full is emptied. -/
def State.withFetchWord (s : State) (nbits w : Nat) : State :=
  let p : Inputs :=
    { rst := false, inValid := true, inBlock := blockOfBytes (natToBytes 16 (w % 2 ^ nbits)), outReady := false
      call := none, hostWrites := [] }
  { s with
    inputs := p :: s.inputs.tail
    calls := []
    driver := none
    queue := if s.room = 0 then [] else s.queue }

end Sys2Proof.Machine
end

