-- ==== Sys2Proof/Safety.lean ====
section
/-! DEFINITION. What counts as a good state and a good run, in the terms the claims use: the invariant of the machine, the
traces of accepted blocks and delivered tiles, and runs in which no reset and no other agent interferes. -/

namespace Sys2Proof.Machine

/-- An entry of `Q` is good in cycle `n`: its tile is the decode of its block (`10_state.md` R28), its latency is at least 1
and it was accepted in an earlier cycle (`70_reset_and_hazards.md` R287). -/
def Entry.ok (n : Nat) (e : Entry) : Prop := e.tile = decodeBlock e.blk ∧ 1 ≤ e.lat ∧ e.nAcc < n

/-- The in-flight queue is good: at most `MAX_INFLIGHT` entries (`10_state.md` R28), each good, in order of acceptance. -/
def State.queueOk (s : State) : Prop :=
  s.queue.length ≤ s.maxInflight ∧ (∀ e ∈ s.queue, e.ok s.cycle) ∧ s.queue.Pairwise fun e e' => e.nAcc < e'.nAcc

/-- Host memory is in canonical form and lists only bytes of the address space (`47_image_driver.md` R242). -/
def State.memOk (s : State) : Prop := s.mem.wf = true ∧ ∀ c ∈ s.mem, c.1 < 2 ^ s.addrBits

/-- A driver call in progress is in contract (`47_image_driver.md` R231, R240), its cursors are in order, and every block in
flight is one that it offered and whose tile it has not received (R241). -/
def State.driverOk (s : State) : Prop :=
  ∀ d, s.driver = some d →
    d.call.violation s.addrBits s.mem = none ∧ d.stored < d.call.blocks ∧ d.offered ≤ d.call.blocks ∧
      d.stored + s.queue.length ≤ d.offered

/-- The invariant of the machine: every step keeps it. -/
def State.Inv (s : State) : Prop :=
  1 ≤ s.maxInflight ∧ 1 ≤ s.addrBits ∧ s.queueOk ∧ s.memOk ∧ s.driverOk

/-- The block accepted at the edge that ends this cycle, if any (`70_reset_and_hazards.md` R283). -/
def State.acceptedBlock (s : State) : Option Block :=
  if s.callStarts then none
  else if s.inReady then
    match s.offer with
    | .ok b => b
    | .error _ => none
  else none

/-- The tile delivered at the edge that ends this cycle, if any (`70_reset_and_hazards.md` R283). -/
def State.deliveredTile (s : State) : Option TileBits :=
  if s.callStarts then none else if s.delivers then some s.outTexels else none

/-- The blocks accepted in the next `k` steps, in order. -/
def acceptedTrace : Nat → State → List Block
  | 0, _ => []
  | k + 1, s =>
    match step s with
    | .next t => s.acceptedBlock.toList ++ acceptedTrace k t
    | _ => []

/-- The tiles delivered in the next `k` steps, in order. -/
def deliveredTrace : Nat → State → List TileBits
  | 0, _ => []
  | k + 1, s =>
    match step s with
    | .next t => s.deliveredTile.toList ++ deliveredTrace k t
    | _ => []

/-- Every one of the next `k` states of the run has property `P`. -/
def always (P : State → Bool) : Nat → State → Bool
  | 0, _ => true
  | k + 1, s =>
    P s && match step s with
      | .next t => always P k t
      | _ => true

/-- No reset in this cycle. -/
def State.noReset (s : State) : Bool := !s.rst

/-- In this cycle there is no reset, no new driver call and no write by another agent (`70_reset_and_hazards.md` R291). -/
def State.quiet (s : State) : Bool :=
  !s.rst && s.envInputs.call.isNone && s.envInputs.hostWrites.isEmpty

/-- In this cycle there is no reset and the consumer takes what is offered. -/
def State.eager (s : State) : Bool := !s.rst && s.envInputs.outReady

end Sys2Proof.Machine
end

