-- ==== Sys2Proof/Certificates/Slice0/Obligations.lean ====
section
/-! DEFINITION. The statements for the provers. Each docstring names the rule of `spec/` it formalises, or says that the
statement rests on a choice of the model and names the log entry. -/

open Sys2Proof Sys2Proof.Machine

/-! ## Encoding -/

/-- `40_mode_select_bitstream.md` R100: the mode is the index of the lowest set bit of `blk[7:0]`, or 8 if there is none. -/
def Obligations.ModeIsLowestSetBit : Prop :=
  ∀ blk : Block,
    (∀ m, m ≤ 7 → ((decode blk).mode = m ↔ blk.getLsbD m = true ∧ ∀ j, j < m → blk.getLsbD j = false)) ∧
      ((decode blk).mode = 8 ↔ blk.extractLsb' 0 8 = 0)

/-- `30_encoding.md` R62–R67, R81: the decoder reads back every field of every well-formed instruction. -/
def Obligations.DecodeOfEncode : Prop := ∀ i : Instr, i.wf = true → decode (encode i) = i

/-- `30_encoding.md` R77 (no bit of any block is unused or padding): encoding what was decoded gives the block back. -/
def Obligations.EncodeOfDecode : Prop := ∀ blk : Block, encode (decode blk) = blk

/-- `30_encoding.md` R63–R67, `43_index_unpack.md` R163: what the decoder answers has its mode's field counts, and every
anchor index is below half the range of its set. -/
def Obligations.DecodedIsWellFormed : Prop := ∀ blk : Block, (decode blk).wf = true

/-- `10_state.md` R25, `30_encoding.md` R77: in every mode and for every block the bit cursor ends at 128. -/
def Obligations.CursorEndsAt128 : Prop := ∀ m, m < 8 → ∀ blk : Block, (unpack m blk.toNat).2 = 128

/-- `95_test_vectors.md` V-M6-1, V-PART-1, V-RAW: three blocks written byte by byte decode to the instructions they stand
for. -/
def Obligations.SampleBlocksDecode : Prop :=
  decode (blockOfBytes [0x40, 0xC0, 0x1F, 0xF0, 0x07, 0xFC, 0x01, 0x7F, 0x11, 0x32, 0x54, 0x76, 0x98, 0xBA, 0xDC, 0xFE]) =
      .mode6 [0, 127] [0, 127] [0, 127] [0, 127] [0, 1] [0, 1, 2, 3, 4, 5, 6, 7, 8, 9, 10, 11, 12, 13, 14, 15] ∧
    decode (blockOfBytes [0x36, 0x00, 0xF0, 0xFF, 0x00, 0xF0, 0xFF, 0x00, 0xF0, 0xFF, 0x02, 0, 0, 0, 0, 0]) =
      .mode1 13 [0, 0, 63, 63] [0, 0, 63, 63] [0, 0, 63, 63] [0, 1] (List.replicate 16 0) ∧
    decode (blockOfBytes [0x00, 0x01, 0, 0, 0, 0, 0, 0, 0, 0, 0, 0, 0, 0, 0, 0]) = .invalid 1

/-- `30_encoding.md` R68: where every field of a mode-0 block stands, the index fields for partition 0. -/
def Obligations.Mode0FieldMap : Prop :=
  ∀ blk : Block, blk.extractLsb' 0 1 = 1 →
    ∃ idx : List (BitVec 3),
      decode blk = .mode0 (blk.extractLsb' 1 4)
        [blk.extractLsb' 5 4, blk.extractLsb' 9 4, blk.extractLsb' 13 4,
         blk.extractLsb' 17 4, blk.extractLsb' 21 4, blk.extractLsb' 25 4]
        [blk.extractLsb' 29 4, blk.extractLsb' 33 4, blk.extractLsb' 37 4,
         blk.extractLsb' 41 4, blk.extractLsb' 45 4, blk.extractLsb' 49 4]
        [blk.extractLsb' 53 4, blk.extractLsb' 57 4, blk.extractLsb' 61 4,
         blk.extractLsb' 65 4, blk.extractLsb' 69 4, blk.extractLsb' 73 4]
        [blk.extractLsb' 77 1, blk.extractLsb' 78 1, blk.extractLsb' 79 1,
         blk.extractLsb' 80 1, blk.extractLsb' 81 1, blk.extractLsb' 82 1]
        idx ∧
      (blk.extractLsb' 1 4 = 0 → anchors 3 0 = [0, 3, 15] ∧ idx =
        [(blk.extractLsb' 83 2).setWidth 3, blk.extractLsb' 85 3, blk.extractLsb' 88 3,
         (blk.extractLsb' 91 2).setWidth 3, blk.extractLsb' 93 3, blk.extractLsb' 96 3,
         blk.extractLsb' 99 3, blk.extractLsb' 102 3, blk.extractLsb' 105 3,
         blk.extractLsb' 108 3, blk.extractLsb' 111 3, blk.extractLsb' 114 3,
         blk.extractLsb' 117 3, blk.extractLsb' 120 3, blk.extractLsb' 123 3,
         (blk.extractLsb' 126 2).setWidth 3])

/-- `30_encoding.md` R69: where every field of a mode-1 block stands, the index fields for partition 0. -/
def Obligations.Mode1FieldMap : Prop :=
  ∀ blk : Block, blk.extractLsb' 0 2 = 2 →
    ∃ idx : List (BitVec 3),
      decode blk = .mode1 (blk.extractLsb' 2 6)
        [blk.extractLsb' 8 6, blk.extractLsb' 14 6, blk.extractLsb' 20 6,
         blk.extractLsb' 26 6]
        [blk.extractLsb' 32 6, blk.extractLsb' 38 6, blk.extractLsb' 44 6,
         blk.extractLsb' 50 6]
        [blk.extractLsb' 56 6, blk.extractLsb' 62 6, blk.extractLsb' 68 6,
         blk.extractLsb' 74 6]
        [blk.extractLsb' 80 1, blk.extractLsb' 81 1]
        idx ∧
      (blk.extractLsb' 2 6 = 0 → anchors 2 0 = [0, 15] ∧ idx =
        [(blk.extractLsb' 82 2).setWidth 3, blk.extractLsb' 84 3, blk.extractLsb' 87 3,
         blk.extractLsb' 90 3, blk.extractLsb' 93 3, blk.extractLsb' 96 3,
         blk.extractLsb' 99 3, blk.extractLsb' 102 3, blk.extractLsb' 105 3,
         blk.extractLsb' 108 3, blk.extractLsb' 111 3, blk.extractLsb' 114 3,
         blk.extractLsb' 117 3, blk.extractLsb' 120 3, blk.extractLsb' 123 3,
         (blk.extractLsb' 126 2).setWidth 3])

/-- `30_encoding.md` R70: where every field of a mode-2 block stands, the index fields for partition 0. -/
def Obligations.Mode2FieldMap : Prop :=
  ∀ blk : Block, blk.extractLsb' 0 3 = 4 →
    ∃ idx : List (BitVec 2),
      decode blk = .mode2 (blk.extractLsb' 3 6)
        [blk.extractLsb' 9 5, blk.extractLsb' 14 5, blk.extractLsb' 19 5,
         blk.extractLsb' 24 5, blk.extractLsb' 29 5, blk.extractLsb' 34 5]
        [blk.extractLsb' 39 5, blk.extractLsb' 44 5, blk.extractLsb' 49 5,
         blk.extractLsb' 54 5, blk.extractLsb' 59 5, blk.extractLsb' 64 5]
        [blk.extractLsb' 69 5, blk.extractLsb' 74 5, blk.extractLsb' 79 5,
         blk.extractLsb' 84 5, blk.extractLsb' 89 5, blk.extractLsb' 94 5]
        idx ∧
      (blk.extractLsb' 3 6 = 0 → anchors 3 0 = [0, 3, 15] ∧ idx =
        [(blk.extractLsb' 99 1).setWidth 2, blk.extractLsb' 100 2, blk.extractLsb' 102 2,
         (blk.extractLsb' 104 1).setWidth 2, blk.extractLsb' 105 2, blk.extractLsb' 107 2,
         blk.extractLsb' 109 2, blk.extractLsb' 111 2, blk.extractLsb' 113 2,
         blk.extractLsb' 115 2, blk.extractLsb' 117 2, blk.extractLsb' 119 2,
         blk.extractLsb' 121 2, blk.extractLsb' 123 2, blk.extractLsb' 125 2,
         (blk.extractLsb' 127 1).setWidth 2])

/-- `30_encoding.md` R71: where every field of a mode-3 block stands, the index fields for partition 0. -/
def Obligations.Mode3FieldMap : Prop :=
  ∀ blk : Block, blk.extractLsb' 0 4 = 8 →
    ∃ idx : List (BitVec 2),
      decode blk = .mode3 (blk.extractLsb' 4 6)
        [blk.extractLsb' 10 7, blk.extractLsb' 17 7, blk.extractLsb' 24 7,
         blk.extractLsb' 31 7]
        [blk.extractLsb' 38 7, blk.extractLsb' 45 7, blk.extractLsb' 52 7,
         blk.extractLsb' 59 7]
        [blk.extractLsb' 66 7, blk.extractLsb' 73 7, blk.extractLsb' 80 7,
         blk.extractLsb' 87 7]
        [blk.extractLsb' 94 1, blk.extractLsb' 95 1, blk.extractLsb' 96 1,
         blk.extractLsb' 97 1]
        idx ∧
      (blk.extractLsb' 4 6 = 0 → anchors 2 0 = [0, 15] ∧ idx =
        [(blk.extractLsb' 98 1).setWidth 2, blk.extractLsb' 99 2, blk.extractLsb' 101 2,
         blk.extractLsb' 103 2, blk.extractLsb' 105 2, blk.extractLsb' 107 2,
         blk.extractLsb' 109 2, blk.extractLsb' 111 2, blk.extractLsb' 113 2,
         blk.extractLsb' 115 2, blk.extractLsb' 117 2, blk.extractLsb' 119 2,
         blk.extractLsb' 121 2, blk.extractLsb' 123 2, blk.extractLsb' 125 2,
         (blk.extractLsb' 127 1).setWidth 2])

/-- `30_encoding.md` R72: where every field of a mode-4 block stands. -/
def Obligations.Mode4FieldMap : Prop :=
  ∀ blk : Block, blk.extractLsb' 0 5 = 16 →
      decode blk = .mode4 (blk.extractLsb' 5 2) (blk.extractLsb' 7 1)
        [blk.extractLsb' 8 5, blk.extractLsb' 13 5]
        [blk.extractLsb' 18 5, blk.extractLsb' 23 5]
        [blk.extractLsb' 28 5, blk.extractLsb' 33 5]
        [blk.extractLsb' 38 6, blk.extractLsb' 44 6]
        [(blk.extractLsb' 50 1).setWidth 2, blk.extractLsb' 51 2, blk.extractLsb' 53 2,
         blk.extractLsb' 55 2, blk.extractLsb' 57 2, blk.extractLsb' 59 2,
         blk.extractLsb' 61 2, blk.extractLsb' 63 2, blk.extractLsb' 65 2,
         blk.extractLsb' 67 2, blk.extractLsb' 69 2, blk.extractLsb' 71 2,
         blk.extractLsb' 73 2, blk.extractLsb' 75 2, blk.extractLsb' 77 2,
         blk.extractLsb' 79 2]
        [(blk.extractLsb' 81 2).setWidth 3, blk.extractLsb' 83 3, blk.extractLsb' 86 3,
         blk.extractLsb' 89 3, blk.extractLsb' 92 3, blk.extractLsb' 95 3,
         blk.extractLsb' 98 3, blk.extractLsb' 101 3, blk.extractLsb' 104 3,
         blk.extractLsb' 107 3, blk.extractLsb' 110 3, blk.extractLsb' 113 3,
         blk.extractLsb' 116 3, blk.extractLsb' 119 3, blk.extractLsb' 122 3,
         blk.extractLsb' 125 3]

/-- `30_encoding.md` R73: where every field of a mode-5 block stands. -/
def Obligations.Mode5FieldMap : Prop :=
  ∀ blk : Block, blk.extractLsb' 0 6 = 32 →
      decode blk = .mode5 (blk.extractLsb' 6 2)
        [blk.extractLsb' 8 7, blk.extractLsb' 15 7]
        [blk.extractLsb' 22 7, blk.extractLsb' 29 7]
        [blk.extractLsb' 36 7, blk.extractLsb' 43 7]
        [blk.extractLsb' 50 8, blk.extractLsb' 58 8]
        [(blk.extractLsb' 66 1).setWidth 2, blk.extractLsb' 67 2, blk.extractLsb' 69 2,
         blk.extractLsb' 71 2, blk.extractLsb' 73 2, blk.extractLsb' 75 2,
         blk.extractLsb' 77 2, blk.extractLsb' 79 2, blk.extractLsb' 81 2,
         blk.extractLsb' 83 2, blk.extractLsb' 85 2, blk.extractLsb' 87 2,
         blk.extractLsb' 89 2, blk.extractLsb' 91 2, blk.extractLsb' 93 2,
         blk.extractLsb' 95 2]
        [(blk.extractLsb' 97 1).setWidth 2, blk.extractLsb' 98 2, blk.extractLsb' 100 2,
         blk.extractLsb' 102 2, blk.extractLsb' 104 2, blk.extractLsb' 106 2,
         blk.extractLsb' 108 2, blk.extractLsb' 110 2, blk.extractLsb' 112 2,
         blk.extractLsb' 114 2, blk.extractLsb' 116 2, blk.extractLsb' 118 2,
         blk.extractLsb' 120 2, blk.extractLsb' 122 2, blk.extractLsb' 124 2,
         blk.extractLsb' 126 2]

/-- `30_encoding.md` R74: where every field of a mode-6 block stands. -/
def Obligations.Mode6FieldMap : Prop :=
  ∀ blk : Block, blk.extractLsb' 0 7 = 64 →
      decode blk = .mode6
        [blk.extractLsb' 7 7, blk.extractLsb' 14 7]
        [blk.extractLsb' 21 7, blk.extractLsb' 28 7]
        [blk.extractLsb' 35 7, blk.extractLsb' 42 7]
        [blk.extractLsb' 49 7, blk.extractLsb' 56 7]
        [blk.extractLsb' 63 1, blk.extractLsb' 64 1]
        [(blk.extractLsb' 65 3).setWidth 4, blk.extractLsb' 68 4, blk.extractLsb' 72 4,
         blk.extractLsb' 76 4, blk.extractLsb' 80 4, blk.extractLsb' 84 4,
         blk.extractLsb' 88 4, blk.extractLsb' 92 4, blk.extractLsb' 96 4,
         blk.extractLsb' 100 4, blk.extractLsb' 104 4, blk.extractLsb' 108 4,
         blk.extractLsb' 112 4, blk.extractLsb' 116 4, blk.extractLsb' 120 4,
         blk.extractLsb' 124 4]

/-- `30_encoding.md` R75: where every field of a mode-7 block stands, the index fields for partition 0. -/
def Obligations.Mode7FieldMap : Prop :=
  ∀ blk : Block, blk.extractLsb' 0 8 = 128 →
    ∃ idx : List (BitVec 2),
      decode blk = .mode7 (blk.extractLsb' 8 6)
        [blk.extractLsb' 14 5, blk.extractLsb' 19 5, blk.extractLsb' 24 5,
         blk.extractLsb' 29 5]
        [blk.extractLsb' 34 5, blk.extractLsb' 39 5, blk.extractLsb' 44 5,
         blk.extractLsb' 49 5]
        [blk.extractLsb' 54 5, blk.extractLsb' 59 5, blk.extractLsb' 64 5,
         blk.extractLsb' 69 5]
        [blk.extractLsb' 74 5, blk.extractLsb' 79 5, blk.extractLsb' 84 5,
         blk.extractLsb' 89 5]
        [blk.extractLsb' 94 1, blk.extractLsb' 95 1, blk.extractLsb' 96 1,
         blk.extractLsb' 97 1]
        idx ∧
      (blk.extractLsb' 8 6 = 0 → anchors 2 0 = [0, 15] ∧ idx =
        [(blk.extractLsb' 98 1).setWidth 2, blk.extractLsb' 99 2, blk.extractLsb' 101 2,
         blk.extractLsb' 103 2, blk.extractLsb' 105 2, blk.extractLsb' 107 2,
         blk.extractLsb' 109 2, blk.extractLsb' 111 2, blk.extractLsb' 113 2,
         blk.extractLsb' 115 2, blk.extractLsb' 117 2, blk.extractLsb' 119 2,
         blk.extractLsb' 121 2, blk.extractLsb' 123 2, blk.extractLsb' 125 2,
         (blk.extractLsb' 127 1).setWidth 2])

/-- `30_encoding.md` R76: `S`, the first bit of the primary index region of each mode. -/
def Sys2Proof.Claims.primaryStart : Nat → Nat
  | 0 => 83
  | 1 => 82
  | 2 => 99
  | 3 => 98
  | 4 => 50
  | 5 => 66
  | 6 => 65
  | _ => 98

/-- `30_encoding.md` R76: where texel `t`'s field starts in a set of `w`-bit indices narrowed at the texels `narrow`. -/
def Sys2Proof.Claims.fieldStart (start w : Nat) (narrow : List Nat) (t : Nat) : Nat :=
  start + ((List.range t).map fun j => w - if j ∈ narrow then 1 else 0).sum

/-- `30_encoding.md` R76: the position and width of every index field for any partition, and where each region ends. -/
def Obligations.IndexFieldPositions : Prop :=
  ∀ m, m < 8 → ∀ blk : Block,
    let f := (unpack m blk.toNat).1
    let D := modeDesc m
    let A := anchors D.partitionCount f.part
    let start := Claims.primaryStart m
    (∀ t, t < 16 → f.idx1[t]? = some
      ((blk.toNat >>> Claims.fieldStart start D.colorIndexBits A t) %
        2 ^ (D.colorIndexBits - if t ∈ A then 1 else 0))) ∧
      Claims.fieldStart start D.colorIndexBits A 16 = (if m = 4 then 81 else if m = 5 then 97 else 128) ∧
      (0 < D.alphaIndexBits →
        (∀ t, t < 16 → f.idx2[t]? = some
          ((blk.toNat >>> Claims.fieldStart (if m = 4 then 81 else 97) D.alphaIndexBits [0] t) %
            2 ^ (D.alphaIndexBits - if t = 0 then 1 else 0))) ∧
          Claims.fieldStart (if m = 4 then 81 else 97) D.alphaIndexBits [0] 16 = 128)

/-! ## Partitions, endpoints, interpolation -/

/-- `41_partition.md` R130: the five invariants of the tables. -/
def Obligations.PartitionTablesConsistent : Prop :=
  ∀ p, p < 64 →
    (∀ t, t < 16 → subsetOf 2 p t < 2 ∧ subsetOf 3 p t < 3) ∧
      subsetOf 2 p 0 = 0 ∧ subsetOf 3 p 0 = 0 ∧
      subsetOf 2 p (A2.getD p 0) = 1 ∧ subsetOf 3 p (A3a.getD p 0) = 1 ∧ subsetOf 3 p (A3b.getD p 0) = 2 ∧
      (∀ n, n < 2 → ∃ t, t < 16 ∧ subsetOf 2 p t = n) ∧ (∀ n, n < 3 → ∃ t, t < 16 ∧ subsetOf 3 p t = n) ∧
      ∀ t, t < 16 → subsetOf 2 p t = (P2Mask.getD p 0 >>> t) % 2

/-- `41_partition.md` R126 (corner cases): the anchors are texels, that of subset 0 is texel 0, anchors of different subsets
differ, and there is one for each subset. -/
def Obligations.AnchorsAreDistinct : Prop :=
  ∀ ns, 1 ≤ ns → ns ≤ 3 → ∀ p, p < 64 →
    (anchors ns p).length = ns ∧ (anchors ns p).Nodup ∧ (anchors ns p).head? = some 0 ∧ ∀ a ∈ anchors ns p, a < 16

/-- `42_endpoints_pbits.md` R148: expansion keeps the stored bits as the top bits, is the identity at 8 bits, and at 7 bits is
`(v << 1) | (v >> 6)`; a stored 7-bit value with its P-bit is taken as it is. -/
def Obligations.ExpansionKeepsStoredBits : Prop :=
  (∀ n, 5 ≤ n → n ≤ 8 → ∀ v, v < 2 ^ n → expand v n < 256 ∧ expand v n >>> (8 - n) = v) ∧
    (∀ v, expand v 8 = v) ∧
    (∀ v, v < 128 → expand v 7 = v <<< 1 ||| v >>> 6) ∧
    ∀ m, m = 3 ∨ m = 6 → ∀ r, r < 128 → ∀ p, p < 2 →
      (expandChannel (modeDesc m) (modeDesc m).colorBits r (some p)).toNat = (r <<< 1 ||| p)

/-- `42_endpoints_pbits.md` R144: expansion from `n` bits moves the value to the top of the byte and fills the low `8 - n` bits
with the value's own top bits, at every `n` from 5 to 8; it takes 0 to 0 and the largest value to 255, and is strictly
increasing. -/
def Obligations.ExpansionIsStrictlyIncreasing : Prop :=
  (∀ n, 5 ≤ n → n ≤ 8 →
    expand 0 n = 0 ∧ expand (2 ^ n - 1) n = 255 ∧ ∀ u v, u < v → v < 2 ^ n → expand u n < expand v n) ∧
    (∀ v, v < 32 → expand v 5 = 8 * v + v / 4) ∧ (∀ v, v < 64 → expand v 6 = 4 * v + v / 16) ∧
    (∀ v, v < 128 → expand v 7 = 2 * v + v / 64) ∧ ∀ v, v < 256 → expand v 8 = v

/-- `42_endpoints_pbits.md` R145, R146: the precision of each mode's colour and alpha channels after the P-bit join, and
alpha 255 where none is stored. -/
def Obligations.EffectivePrecision : Prop :=
  ((List.range 8).map fun m => joinedWidth (modeDesc m) (modeDesc m).colorBits) = [5, 7, 5, 8, 5, 7, 8, 6] ∧
    ((List.range 4).map fun m => joinedWidth (modeDesc (m + 4)) (modeDesc (m + 4)).alphaBits) = [6, 8, 8, 6] ∧
    ∀ m, m < 4 → ∀ f e, (endpoint (modeDesc m) f e).a = 255

/-- `44_interpolate.md` R180: the weights of each index width; each table starts at 0, ends at 64 and is strictly increasing. -/
def Obligations.WeightTablesRise : Prop :=
  ((List.range 4).map fun i => weight ⟨i, 2⟩) = [0, 21, 43, 64] ∧
    ((List.range 8).map fun i => weight ⟨i, 3⟩) = [0, 9, 18, 27, 37, 46, 55, 64] ∧
    ((List.range 16).map fun i => weight ⟨i, 4⟩) = [0, 4, 9, 13, 17, 21, 26, 30, 34, 38, 43, 47, 51, 55, 60, 64] ∧
    ∀ b, 2 ≤ b → b ≤ 4 →
      weight ⟨0, b⟩ = 0 ∧ weight ⟨2 ^ b - 1, b⟩ = 64 ∧ ∀ i j, i < j → j < 2 ^ b → weight ⟨i, b⟩ < weight ⟨j, b⟩

/-- `44_interpolate.md` R182: interpolation is exact in 8 bits, and has the corner cases the rule lists. -/
def Obligations.InterpolationProperties : Prop :=
  ∀ (e0 e1 : Byte) (w : Nat), w ≤ 64 →
    (interp e0 e1 w).toNat = ((64 - w) * e0.toNat + w * e1.toNat + 32) / 64 ∧
      (64 - w) * e0.toNat + w * e1.toNat + 32 ≤ 16352 ∧
      interp e0 e1 0 = e0 ∧ interp e0 e1 64 = e1 ∧ interp e0 e0 w = e0 ∧
      interp e0 e1 w = interp e1 e0 (64 - w) ∧
      min e0.toNat e1.toNat ≤ (interp e0 e1 w).toNat ∧ (interp e0 e1 w).toNat ≤ max e0.toNat e1.toNat

/-! ## The decode function -/

/-- `42_endpoints_pbits.md` R146, `44_interpolate.md` R184 item 2: in modes 0 to 3 every texel's alpha is 255. -/
def Obligations.AlphaIs255WithoutAlphaFields : Prop :=
  ∀ blk : Block, (decode blk).mode ≤ 3 → ∀ x ∈ decodeBlock blk, x.a = 255

/-- `44_interpolate.md` R184 item 1 with `45_rotation_output.md` R190: where both endpoints of a texel's subset expand to the
same colour, the texel is that colour, rotated. -/
def Obligations.EqualEndpointsGiveTheirColor : Prop :=
  ∀ i : Instr, i.mode < 8 → ∀ t, t < 16 → ∀ C : Texel,
    let D := modeDesc i.mode
    let n := subsetOf D.partitionCount i.fields.part t
    endpoint D i.fields (2 * n) = C → endpoint D i.fields (2 * n + 1) = C →
      i.tile[t]? = some (rotate i.fields.rot C)

/-- `45_rotation_output.md` R190, `46_block_modes.md` R220 item 2: rotation code 0 changes nothing, and codes 1, 2 and 3 exchange
A with R, G and B. In modes 4 (rotation in bits 6:5) and 5 (bits 7:6), a block's tile is, texel by texel, that of the block
with rotation 0 and otherwise the same fields, with that exchange. -/
def Obligations.RotationOnlySwapsChannels : Prop :=
  (∀ x : Texel, rotate 0 x = x ∧ rotate 1 x = ⟨x.a, x.g, x.b, x.r⟩ ∧ rotate 2 x = ⟨x.r, x.a, x.b, x.g⟩ ∧
    rotate 3 x = ⟨x.r, x.g, x.a, x.b⟩) ∧
    ∀ (blk : Block) (lo : Nat), ((decode blk).mode = 4 ∧ lo = 5) ∨ ((decode blk).mode = 5 ∧ lo = 6) → ∀ t, t < 16 →
      ∃ x y : Texel, (decodeBlock (blk &&& ~~~ (3#128 <<< lo)))[t]? = some x ∧ (decodeBlock blk)[t]? = some y ∧
        (blk.extractLsb' lo 2 = 0 → y.r = x.r ∧ y.g = x.g ∧ y.b = x.b ∧ y.a = x.a) ∧
        (blk.extractLsb' lo 2 = 1 → y.r = x.a ∧ y.g = x.g ∧ y.b = x.b ∧ y.a = x.r) ∧
        (blk.extractLsb' lo 2 = 2 → y.r = x.r ∧ y.g = x.a ∧ y.b = x.b ∧ y.a = x.g) ∧
        (blk.extractLsb' lo 2 = 3 → y.r = x.r ∧ y.g = x.g ∧ y.b = x.a ∧ y.a = x.b)

/-- `44_interpolate.md` R184 item 3, `46_block_modes.md` R220 item 3: a texel depends only on the partition, rotation and
selection fields, its own indices, and the stored channels and P-bits of its own subset's endpoints. -/
def Obligations.TexelDependsOnOwnSubset : Prop :=
  ∀ m, m < 8 → ∀ (f f' : Fields) (t : Nat), t < 16 → f.part = f'.part → f.rot = f'.rot → f.isel = f'.isel →
    f.idx1[t]? = f'.idx1[t]? → f.idx2[t]? = f'.idx2[t]? →
    (∀ e, e / 2 = subsetOf (modeDesc m).partitionCount f.part t →
      f.r[e]? = f'.r[e]? ∧ f.g[e]? = f'.g[e]? ∧ f.b[e]? = f'.b[e]? ∧ f.a[e]? = f'.a[e]? ∧
        pBitOf (modeDesc m) f e = pBitOf (modeDesc m) f' e) →
    (decodeTile (modeDesc m) f)[t]? = (decodeTile (modeDesc m) f')[t]?

/-- `45_rotation_output.md` R193: a reserved-mode block decodes to 16 texels (0, 0, 0, 0), all 512 output bits 0, whatever
its other bits are. -/
def Obligations.ReservedModeGivesFallback : Prop :=
  ∀ blk : Block, blk.extractLsb' 0 8 = 0 →
    decodeBlock blk = List.replicate 16 ⟨0, 0, 0, 0⟩ ∧ formatTile (decodeBlock blk) = 0

/-- `45_rotation_output.md` R192: channel `c` of texel `t` is output bits `32t + 8c + 7 : 32t + 8c`, and byte `4t + c` of the
output tile. -/
def Obligations.OutputPortLayout : Prop :=
  ∀ T : Tile, T.length = 16 → ∀ t x, T[t]? = some x →
    ((formatTile T).extractLsb' (32 * t) 8 = x.r ∧ (formatTile T).extractLsb' (32 * t + 8) 8 = x.g ∧
      (formatTile T).extractLsb' (32 * t + 16) 8 = x.b ∧ (formatTile T).extractLsb' (32 * t + 24) 8 = x.a) ∧
    ((tileBytes T)[4 * t]? = some x.r ∧ (tileBytes T)[4 * t + 1]? = some x.g ∧
      (tileBytes T)[4 * t + 2]? = some x.b ∧ (tileBytes T)[4 * t + 3]? = some x.a)

/-! ## The nine instructions: what each leaves, and that nothing else changes -/

/-- The 8-bit value of a stored channel of endpoint `e` joined with the P-bit field `q` and expanded from `n` bits
(`42_endpoints_pbits.md` R143, R144). -/
def Sys2Proof.Claims.joined {w : Nat} (l : List (BitVec w)) (p : List (BitVec 1)) (n e q : Nat) : Byte :=
  BitVec.ofNat 8 (expand ((l.getD e 0).toNat <<< 1 ||| (p.getD q 0).toNat) n)

/-- The 8-bit value of a stored channel of endpoint `e` without a P-bit, expanded from its `w` bits
(`42_endpoints_pbits.md` R143, R144). -/
def Sys2Proof.Claims.plain {w : Nat} (l : List (BitVec w)) (e : Nat) : Byte :=
  BitVec.ofNat 8 (expand (l.getD e 0).toNat w)

/-- The state after a block was accepted: `Q` has one more entry and the transaction count is one higher; every other field
is that of `s` (`20_memory.md` R47, `70_reset_and_hazards.md` R289). -/
def Sys2Proof.Claims.afterAccept (s : State) (blk : Block) (T : Tile) : State :=
  { s with
    queue := s.queue ++ [{ blk := blk, tile := T, nAcc := s.cycle, lat := s.latency }]
    accepted := s.accepted + 1 }

/-- `46_block_modes.md` R211: with `in_ready` = 1 a MODE0 block is accepted. Its texels come
from three subsets, 5-bit joined channels, weights `W3` and alpha 255. Nothing but
`Q` and the transaction count changes. -/
def Obligations.Mode0Decodes : Prop :=
  ∀ (part : BitVec 4) (r g b : List (BitVec 4)) (p : List (BitVec 1)) (idx : List (BitVec 3)) (s : State),
    s.inReady = true → ∃ T : Tile,
      exec (.mode0 part r g b p idx) s =
          .next (Claims.afterAccept s (encode (.mode0 part r g b p idx)) T) ∧
      T.length = 16 ∧ ∀ t, t < 16 →
        let n := rowDigit (P3.getD part.toNat 0) t
        let w := W3.getD (idx.getD t 0).toNat 0
        T[t]? = some
          { r := interp (Claims.joined r p 5 (2 * n) (2 * n)) (Claims.joined r p 5 (2 * n + 1) (2 * n + 1)) w
            g := interp (Claims.joined g p 5 (2 * n) (2 * n)) (Claims.joined g p 5 (2 * n + 1) (2 * n + 1)) w
            b := interp (Claims.joined b p 5 (2 * n) (2 * n)) (Claims.joined b p 5 (2 * n + 1) (2 * n + 1)) w
            a := 255 }

/-- `46_block_modes.md` R212: with `in_ready` = 1 a MODE1 block is accepted. Its texels come
from two subsets, 7-bit channels joined with their subset's P-bit, weights `W3` and alpha 255. Nothing but
`Q` and the transaction count changes. -/
def Obligations.Mode1Decodes : Prop :=
  ∀ (part : BitVec 6) (r g b : List (BitVec 6)) (p : List (BitVec 1)) (idx : List (BitVec 3)) (s : State),
    s.inReady = true → ∃ T : Tile,
      exec (.mode1 part r g b p idx) s =
          .next (Claims.afterAccept s (encode (.mode1 part r g b p idx)) T) ∧
      T.length = 16 ∧ ∀ t, t < 16 →
        let n := rowDigit (P2.getD part.toNat 0) t
        let w := W3.getD (idx.getD t 0).toNat 0
        T[t]? = some
          { r := interp (Claims.joined r p 7 (2 * n) n) (Claims.joined r p 7 (2 * n + 1) n) w
            g := interp (Claims.joined g p 7 (2 * n) n) (Claims.joined g p 7 (2 * n + 1) n) w
            b := interp (Claims.joined b p 7 (2 * n) n) (Claims.joined b p 7 (2 * n + 1) n) w
            a := 255 }

/-- `46_block_modes.md` R213: with `in_ready` = 1 a MODE2 block is accepted. Its texels come
from three subsets, 5-bit channels, weights `W2` and alpha 255. Nothing but
`Q` and the transaction count changes. -/
def Obligations.Mode2Decodes : Prop :=
  ∀ (part : BitVec 6) (r g b : List (BitVec 5)) (idx : List (BitVec 2)) (s : State),
    s.inReady = true → ∃ T : Tile,
      exec (.mode2 part r g b idx) s =
          .next (Claims.afterAccept s (encode (.mode2 part r g b idx)) T) ∧
      T.length = 16 ∧ ∀ t, t < 16 →
        let n := rowDigit (P3.getD part.toNat 0) t
        let w := W2.getD (idx.getD t 0).toNat 0
        T[t]? = some
          { r := interp (Claims.plain r (2 * n)) (Claims.plain r (2 * n + 1)) w
            g := interp (Claims.plain g (2 * n)) (Claims.plain g (2 * n + 1)) w
            b := interp (Claims.plain b (2 * n)) (Claims.plain b (2 * n + 1)) w
            a := 255 }

/-- `46_block_modes.md` R214: with `in_ready` = 1 a MODE3 block is accepted. Its texels come
from two subsets, 8-bit joined channels, weights `W2` and alpha 255. Nothing but
`Q` and the transaction count changes. -/
def Obligations.Mode3Decodes : Prop :=
  ∀ (part : BitVec 6) (r g b : List (BitVec 7)) (p : List (BitVec 1)) (idx : List (BitVec 2)) (s : State),
    s.inReady = true → ∃ T : Tile,
      exec (.mode3 part r g b p idx) s =
          .next (Claims.afterAccept s (encode (.mode3 part r g b p idx)) T) ∧
      T.length = 16 ∧ ∀ t, t < 16 →
        let n := rowDigit (P2.getD part.toNat 0) t
        let w := W2.getD (idx.getD t 0).toNat 0
        T[t]? = some
          { r := interp (Claims.joined r p 8 (2 * n) (2 * n)) (Claims.joined r p 8 (2 * n + 1) (2 * n + 1)) w
            g := interp (Claims.joined g p 8 (2 * n) (2 * n)) (Claims.joined g p 8 (2 * n + 1) (2 * n + 1)) w
            b := interp (Claims.joined b p 8 (2 * n) (2 * n)) (Claims.joined b p 8 (2 * n + 1) (2 * n + 1)) w
            a := 255 }

/-- `46_block_modes.md` R215: with `in_ready` = 1 a MODE4 block is accepted. Its texels come
from one subset, 5-bit colour and 6-bit alpha channels, the index sets in the roles that `isel` gives them, and rotation. Nothing but
`Q` and the transaction count changes. -/
def Obligations.Mode4Decodes : Prop :=
  ∀ (rot : BitVec 2) (isel : BitVec 1) (r g b : List (BitVec 5)) (a : List (BitVec 6))
    (idx1 : List (BitVec 2)) (idx2 : List (BitVec 3)) (s : State),
    s.inReady = true → ∃ T : Tile,
      exec (.mode4 rot isel r g b a idx1 idx2) s =
          .next (Claims.afterAccept s (encode (.mode4 rot isel r g b a idx1 idx2)) T) ∧
      T.length = 16 ∧ ∀ t, t < 16 →
        let w1 := W2.getD (idx1.getD t 0).toNat 0
        let w2 := W3.getD (idx2.getD t 0).toNat 0
        let wC := if isel = 0 then w1 else w2
        let wA := if isel = 0 then w2 else w1
        let x : Texel :=
          { r := interp (Claims.plain r 0) (Claims.plain r 1) wC
            g := interp (Claims.plain g 0) (Claims.plain g 1) wC
            b := interp (Claims.plain b 0) (Claims.plain b 1) wC
            a := interp (Claims.plain a 0) (Claims.plain a 1) wA }
        T[t]? = some (rotate rot.toNat x)

/-- `46_block_modes.md` R216: with `in_ready` = 1 a MODE5 block is accepted. Its texels come
from one subset, 7-bit colour and 8-bit alpha channels, two index sets with weights `W2`, and rotation. Nothing but
`Q` and the transaction count changes. -/
def Obligations.Mode5Decodes : Prop :=
  ∀ (rot : BitVec 2) (r g b : List (BitVec 7)) (a : List (BitVec 8)) (idx1 idx2 : List (BitVec 2)) (s : State),
    s.inReady = true → ∃ T : Tile,
      exec (.mode5 rot r g b a idx1 idx2) s =
          .next (Claims.afterAccept s (encode (.mode5 rot r g b a idx1 idx2)) T) ∧
      T.length = 16 ∧ ∀ t, t < 16 →
        let wC := W2.getD (idx1.getD t 0).toNat 0
        let wA := W2.getD (idx2.getD t 0).toNat 0
        let x : Texel :=
          { r := interp (Claims.plain r 0) (Claims.plain r 1) wC
            g := interp (Claims.plain g 0) (Claims.plain g 1) wC
            b := interp (Claims.plain b 0) (Claims.plain b 1) wC
            a := interp (Claims.plain a 0) (Claims.plain a 1) wA }
        T[t]? = some (rotate rot.toNat x)

/-- `46_block_modes.md` R217: with `in_ready` = 1 a MODE6 block is accepted. Its texels come
from one subset, 8-bit joined channels and weights `W4`. Nothing but
`Q` and the transaction count changes. -/
def Obligations.Mode6Decodes : Prop :=
  ∀ (r g b a : List (BitVec 7)) (p : List (BitVec 1)) (idx : List (BitVec 4)) (s : State),
    s.inReady = true → ∃ T : Tile,
      exec (.mode6 r g b a p idx) s =
          .next (Claims.afterAccept s (encode (.mode6 r g b a p idx)) T) ∧
      T.length = 16 ∧ ∀ t, t < 16 →
        let w := W4.getD (idx.getD t 0).toNat 0
        T[t]? = some
          { r := interp (Claims.joined r p 8 0 0) (Claims.joined r p 8 1 1) w
            g := interp (Claims.joined g p 8 0 0) (Claims.joined g p 8 1 1) w
            b := interp (Claims.joined b p 8 0 0) (Claims.joined b p 8 1 1) w
            a := interp (Claims.joined a p 8 0 0) (Claims.joined a p 8 1 1) w }

/-- `46_block_modes.md` R218: with `in_ready` = 1 a MODE7 block is accepted. Its texels come
from two subsets, 6-bit joined channels and weights `W2`. Nothing but
`Q` and the transaction count changes. -/
def Obligations.Mode7Decodes : Prop :=
  ∀ (part : BitVec 6) (r g b a : List (BitVec 5)) (p : List (BitVec 1)) (idx : List (BitVec 2)) (s : State),
    s.inReady = true → ∃ T : Tile,
      exec (.mode7 part r g b a p idx) s =
          .next (Claims.afterAccept s (encode (.mode7 part r g b a p idx)) T) ∧
      T.length = 16 ∧ ∀ t, t < 16 →
        let n := rowDigit (P2.getD part.toNat 0) t
        let w := W2.getD (idx.getD t 0).toNat 0
        T[t]? = some
          { r := interp (Claims.joined r p 6 (2 * n) (2 * n)) (Claims.joined r p 6 (2 * n + 1) (2 * n + 1)) w
            g := interp (Claims.joined g p 6 (2 * n) (2 * n)) (Claims.joined g p 6 (2 * n + 1) (2 * n + 1)) w
            b := interp (Claims.joined b p 6 (2 * n) (2 * n)) (Claims.joined b p 6 (2 * n + 1) (2 * n + 1)) w
            a := interp (Claims.joined a p 6 (2 * n) (2 * n)) (Claims.joined a p 6 (2 * n + 1) (2 * n + 1)) w }

/-- `46_block_modes.md` R219, `60_exceptions.md` R251: with `in_ready` = 1 an INVALID block is accepted like any other, and its
tile is 16 texels (0, 0, 0, 0). Nothing but `Q` and the transaction count changes. -/
def Obligations.InvalidDecodesToFallback : Prop :=
  ∀ (rest : BitVec 120) (s : State),
    s.inReady = true →
      exec (.invalid rest) s =
        .next (Claims.afterAccept s (encode (.invalid rest)) (List.replicate 16 ⟨0, 0, 0, 0⟩))

/-- `70_reset_and_hazards.md` R283, R288: with `in_ready` = 0 no block is accepted: whatever the instruction, nothing changes
and the offer waits (log entry 19). -/
def Obligations.NothingIsAcceptedWhenNotReady : Prop :=
  ∀ (i : Instr) (s : State), s.inReady = false → exec i s = .next s

/-! ## The machine over time -/

/-- A step runs the decoded instruction: with no call to start and `rst` = 0, the step on a cycle in which block `blk` is on
offer is `exec` of the decoded instruction, followed by the rest of the clock edge (delivery, the driver's cursor, and the
tick). The rest of the edge is a function of the state in which the cycle began and of the state `exec` answers. -/
def Obligations.StepRunsDecodedBlock : Prop :=
  ∀ (s t : State) (blk : Block) (i : Instr), s.callStarts = false → s.rst = false → s.offer = .ok (some blk) →
    decode blk = i → exec i s = .next t → step s = .next (s.clockEdge true t)

/-- `00_scope.md` R7: the parameters are fixed for the machine; no step changes `MAX_INFLIGHT`, the latencies or `ADDR_BITS`. -/
def Obligations.ParametersNeverChange : Prop :=
  ∀ s t : State, step s = .next t →
    t.maxInflight = s.maxInflight ∧ t.latencies = s.latencies ∧ t.addrBits = s.addrBits

/-- `70_reset_and_hazards.md` R289: one clock cycle, as the rule's step function gives it: the outputs of the cycle, and the
update of `Q` at its end. -/
def Obligations.CycleFollowsStepFunction : Prop :=
  ∀ s t : State, s.Inv → s.callStarts = false → step s = .next t →
    t.cycle = s.cycle + 1 ∧
    (s.rst = true → t.out.inReady = false ∧ t.out.outValid = false ∧ t.queue = []) ∧
    (s.rst = false →
      (t.out.inReady = true ↔ s.queue.length < s.maxInflight) ∧
      (t.out.outValid = true ↔ ∃ e q, s.queue = e :: q ∧ s.cycle ≥ e.nAcc + e.lat) ∧
      (t.out.outValid = true → ∀ e q, s.queue = e :: q → t.out.outTexels = formatTile (decodeBlock e.blk)) ∧
      ∃ offered : Option Block, s.offer = .ok offered ∧
        t.queue.map (fun e => (e.blk, e.nAcc, e.lat)) =
          ((if t.out.outValid = true ∧ s.envInputs.outReady = true then s.queue.tail else s.queue).map
              fun e => (e.blk, e.nAcc, e.lat)) ++
            (if t.out.inReady = true then offered.toList.map fun b => (b, s.cycle, s.latency) else []))

/-- `70_reset_and_hazards.md` R288: with `rst` = 0, `in_ready` is 1 exactly when `Q` holds fewer than MAX_INFLIGHT entries at
the start of the cycle; `out_ready` has no influence on it; and a step from a good state leaves at most MAX_INFLIGHT entries. -/
def Obligations.InReadyExactlyWhenRoom : Prop :=
  ∀ s : State,
    (s.rst = false → (s.inReady = true ↔ s.queue.length < s.maxInflight)) ∧
    (∀ (p : Inputs) (ps : List Inputs) (v : Bool), s.inputs = p :: ps →
      ({ s with inputs := { p with outReady := v } :: ps }).inReady = s.inReady) ∧
    ∀ t, s.Inv → step s = .next t → t.queue.length ≤ t.maxInflight

/-- `70_reset_and_hazards.md` R284: with `rst` = 0, `out_valid` is 1 exactly when the oldest entry has waited its latency;
`out_texels` is then the formatted decode of its block; and the offer stays, unchanged, until a delivery or a reset. -/
def Obligations.OutputHoldsUntilDelivered : Prop :=
  ∀ s : State, s.Inv → s.rst = false →
    (s.outValid = true ↔ ∃ e q, s.queue = e :: q ∧ e.nAcc + e.lat ≤ s.cycle) ∧
    (s.outValid = true → ∀ e q, s.queue = e :: q → s.outTexels = formatTile (decodeBlock e.blk)) ∧
    ∀ t, step s = .next t → s.outValid = true → s.delivers = false → t.rst = false →
      t.outValid = true ∧ t.outTexels = s.outTexels

/-- `70_reset_and_hazards.md` R287: a block accepted in cycle `n` enters `Q` with a latency of at least 1, so it is not offered
in cycle `n`; it has waited enough from cycle `n + lat` on. -/
def Obligations.LatencyIsWaited : Prop :=
  ∀ (s t : State) (blk : Block), s.Inv → step s = .next t → s.acceptedBlock = some blk →
    ∃ e, t.queue.getLast? = some e ∧ e.blk = blk ∧ e.nAcc = s.cycle ∧ 1 ≤ e.lat ∧ e.due s.cycle = false ∧
      ∀ n, e.due n = true ↔ s.cycle + e.lat ≤ n

/-- `70_reset_and_hazards.md` R280, `10_state.md` R30: a clock edge with `rst` = 1 empties `Q`; `in_ready` and `out_valid` are 0
in that cycle, and nothing is accepted or delivered. In the next cycle, if `rst` is 0, `out_valid` is 0 and `in_ready` is 1.
Two clauses are the model's, not the spec's: that a reset edge leaves the transaction number as it is (log entry 10), and that
host memory changes only by other agents' writes (log entry 24). -/
def Obligations.ResetEmptiesQueue : Prop :=
  ∀ s : State, s.Inv → s.callStarts = false → s.rst = true →
    ∃ t, step s = .next t ∧ t.queue = [] ∧ t.out.inReady = false ∧ t.out.outValid = false ∧
      s.acceptedBlock = none ∧ s.deliveredTile = none ∧ t.accepted = s.accepted ∧
      (∀ a, a ∉ s.envInputs.hostWrites.map (·.1) → t.mem.read a = s.mem.read a) ∧
      (t.rst = false → t.outValid = false ∧ t.inReady = true)

/-- `10_state.md` R30: the state after reset has an empty `Q`, and `in_ready` = `out_valid` = 0 stand on the ports. In the first
cycle after it, whatever the environment does but reset, `in_ready` is 1 and `out_valid` is 0. -/
def Obligations.ResetStateValues : Prop :=
  State.reset.queue = [] ∧ State.reset.out.inReady = false ∧ State.reset.out.outValid = false ∧
    ∀ (p : Inputs) (ps : List Inputs), p.rst = false →
      ({ State.reset with inputs := p :: ps }).inReady = true ∧ ({ State.reset with inputs := p :: ps }).outValid = false

/-- The state after reset satisfies the invariant (`10_state.md` R30, `00_scope.md` R7). -/
def Obligations.ResetSatisfiesInvariant : Prop := State.reset.Inv

/-- Every step keeps the invariant: `Q` holds at most MAX_INFLIGHT entries in order of acceptance, each with the decode of its
block (`10_state.md` R28), host memory is in canonical form, and a driver call in progress is in contract with its cursors in
order (`47_image_driver.md` R231, R241). -/
def Obligations.StepKeepsInvariant : Prop := ∀ s t : State, s.Inv → step s = .next t → t.Inv

/-- `60_exceptions.md` R250, `47_image_driver.md` R231, R235: a step from a good state never faults, and it is refused only for
a driver call that is out of contract. -/
def Obligations.NoFaultFromGoodStates : Prop :=
  ∀ s : State, s.Inv →
    (∃ t, step s = .next t) ∨
      ∃ c rest v, s.calls = c :: rest ∧ c.violation s.addrBits s.mem = some v ∧ step s = .refused (.outOfContract v)

/-- `70_reset_and_hazards.md` R286 for one step: what a cycle delivers, followed by what is then in flight, is what was in
flight, followed by the decode of what the cycle accepted. -/
def Obligations.CycleConservesTiles : Prop :=
  ∀ s t : State, s.Inv → s.rst = false → step s = .next t →
    s.deliveredTile.toList ++ t.queue.map (fun e => formatTile e.tile) =
      s.queue.map (fun e => formatTile e.tile) ++ s.acceptedBlock.toList.map fun b => formatTile (decodeBlock b)

/-- `70_reset_and_hazards.md` R286, `20_memory.md` R50: over any run without reset, the tiles delivered, followed by those in
flight at its end, are those in flight at its start followed by `DecodeBlock` of the blocks accepted, in order: results
come in acceptance order, exactly one for each accepted block. -/
def Obligations.DeliveryInOrderExactlyOnce : Prop :=
  ∀ (k : Nat) (s t : State), s.Inv → always State.noReset k s = true → Host.Core.run core k s = .next t →
    deliveredTrace k s ++ t.queue.map (fun e => formatTile e.tile) =
      s.queue.map (fun e => formatTile e.tile) ++ (acceptedTrace k s).map fun b => formatTile (decodeBlock b)

/-- `70_reset_and_hazards.md` R287 (progress): if no reset comes, no driver call intervenes and the consumer keeps `out_ready`
= 1, then every block in flight is delivered, in order, within `D` cycles plus one for each block, where `D` cycles are
enough for each to have waited its latency. -/
def Obligations.AcceptedBlocksAreDelivered : Prop :=
  ∀ (D : Nat) (s : State), s.driver = none → s.calls = [] → (∀ e ∈ s.queue, e.nAcc + e.lat ≤ s.cycle + D) →
    always (fun u => u.eager && u.envInputs.call.isNone) (D + s.queue.length) s = true →
    s.queue.map (fun e => formatTile e.tile) <+: deliveredTrace (D + s.queue.length) s

/-- `20_memory.md` R51, `10_state.md` R20: two machines in any states, with any parameters, any blocks decoded before and at
any times, give the same block the same tile. -/
def Obligations.TileDependsOnBlockAlone : Prop :=
  ∀ s t s' t' : State, s.Inv → s'.Inv → step s = .next t → step s' = .next t' → s.acceptedBlock.isSome = true →
    s.acceptedBlock = s'.acceptedBlock →
    t.queue.getLast?.map (fun e => e.tile) = t'.queue.getLast?.map fun e => e.tile

/-- `20_memory.md` R54, `70_reset_and_hazards.md` R283, R285: the entry of a block accepted from the ports holds the value of
`in_block` in the cycle before the acceptance edge, whatever the environment does in later cycles; and in a cycle with
`in_valid` = 0 and no driver call in progress no block is on offer and none is accepted. -/
def Obligations.AcceptanceCapturesInBlock : Prop :=
  (∀ (s t : State) (p : Inputs) (ps : List Inputs), s.inputs = p :: ps → s.callStarts = false → s.driver = none →
    p.inValid = true → s.inReady = true → step s = .next t →
      ∃ e, t.queue.getLast? = some e ∧ e.blk = p.inBlock ∧ e.tile = decodeBlock p.inBlock) ∧
    ∀ s : State, s.driver = none → s.envInputs.inValid = false →
      s.offer = .ok none ∧ s.acceptedBlock = none ∧
        ∀ t, step s = .next t → t.accepted = s.accepted ∧ ∀ e ∈ t.queue, e ∈ s.queue

/-! ## Host memory and the image driver -/

/-- `20_memory.md` R40, `47_image_driver.md` R234: but for the bytes that other agents write in the cycle, a step changes host
memory only where a delivery during a driver call scatters the tile of block `stored`; every byte outside its 64 destination
addresses and outside those agents' writes reads as before. That a tile's 64 bytes land at its delivery edge is log entry 18,
and that other agents' writes land at the edge that ends their cycle is log entry 16. -/
def Obligations.MemoryChangesOnlyByScatter : Prop :=
  ∀ s t : State, step s = .next t → ∀ a, a ∉ s.envInputs.hostWrites.map (·.1) →
    (∀ d, s.driver = some d → s.delivers = true → s.callStarts = false →
      ∀ x c, x < 16 → c < 4 → a ≠ d.call.dstAddr d.stored x c) →
    t.mem.read a = s.mem.read a

/-- `47_image_driver.md` R231, R235, R238, R240, `60_exceptions.md` R258: a call that begins is refused when it breaks a
precondition, and begins, with no clock edge and no other change, when all hold; the check is exactly the rules' list. An empty
image needs no buffer (R238), but its width, height and pitch are checked like any other's (log entry 27). A call without a
block is complete at once. That a call begins between clock edges is the model's choice (log entry 13); `srcBytes` and
`dstBytes`, the sizes of the buffers, are those of R230 (log entry 25). -/
def Obligations.ContractDecidesTheCall : Prop :=
  ∀ (s : State) (c : Call) (rest : List Call), s.callStarts = true → s.calls = c :: rest →
    ((c.violation s.addrBits s.mem = none ↔
      c.w % 4 = 0 ∧ c.h % 4 = 0 ∧ 4 * c.w ≤ c.pitch ∧
        (c.w = 0 ∨ c.h = 0 ∨
          (∀ j, j < c.srcBytes → c.src + j < 2 ^ s.addrBits ∧ (s.mem.read (c.src + j)).isSome = true) ∧
          (∀ j, j < c.dstBytes → c.dst + j < 2 ^ s.addrBits) ∧
          ∀ j l, j < c.srcBytes → l < c.dstBytes → c.src + j ≠ c.dst + l)) ∧
    (∀ v, c.violation s.addrBits s.mem = some v → step s = .refused (.outOfContract v)) ∧
    (c.violation s.addrBits s.mem = none → step s = .next { s with
      calls := rest
      driver := if c.blocks = 0 then none else some { call := c, offered := 0, stored := 0, raced := [] } }))

/-- `47_image_driver.md` R243 item 1: in an in-contract call the destination addresses of all channels of all texels of all
blocks differ. -/
def Obligations.DestinationAddressesDiffer : Prop :=
  ∀ c : Call, c.w % 4 = 0 → 4 * c.w ≤ c.pitch → ∀ k t x k' t' x', k < c.blocks → t < 16 → x < 4 → k' < c.blocks →
    t' < 16 → x' < 4 → c.dstAddr k t x = c.dstAddr k' t' x' → k = k' ∧ t = t' ∧ x = x'

/-- `47_image_driver.md` R234, R243: an in-contract call completes; destination byte `dst + Y*pitch + 4X + ch` is channel `ch` of
texel `4 (Y mod 4) + X mod 4` of the decode of source block `(Y div 4)(W/4) + X div 4`, and every other byte of memory keeps
its value. -/
def Obligations.DecodeImageWritesTheImage : Prop :=
  ∀ (n : Nat) (c : Call) (m : Memory), c.violation n m = none →
    ∃ m', decodeImage n c m = .ok m' ∧
      (∀ X Y ch, X < c.w → Y < c.h → ch < 4 →
        ∃ x, (decodeBlock (c.blockAt m (Y / 4 * (c.w / 4) + X / 4)))[4 * (Y % 4) + X % 4]? = some x ∧
          m'.read (c.dst + Y * c.pitch + 4 * X + ch) = (texelBytes x)[ch]?) ∧
      ∀ a, (∀ X Y ch, X < c.w → Y < c.h → ch < 4 → a ≠ c.dst + Y * c.pitch + 4 * X + ch) → m'.read a = m.read a

/-- `47_image_driver.md` R237, `20_memory.md` R51: any order of the blocks of an in-contract call gives the same memory. That a
sharding over instances is an order of the blocks on one instance is the model's choice (log entry 6). -/
def Obligations.ShardingGivesTheSameImage : Prop :=
  ∀ (n : Nat) (c : Call) (m : Memory) (ks : List Nat), m.wf = true → c.violation n m = none →
    ks.Perm (List.range c.blocks) → decodeImage n c m = .ok (c.doBlocks m ks)

/-- `47_image_driver.md` R241, R232, R233: a driver call run through the block, cycle by cycle, at any pace, with any latencies
and any MAX_INFLIGHT, and with no reset and no other agent, ends with host memory as the procedure `DecodeImage` leaves it. How
the driver uses the ports is log entries 12, 13 and 18. -/
def Obligations.DriverThroughBlockIsDecodeImage : Prop :=
  ∀ (k : Nat) (s t : State) (c : Call), s.Inv → s.driver = none → s.queue = [] → s.calls = [c] →
    c.violation s.addrBits s.mem = none → always State.quiet k s = true → 1 ≤ k → Host.Core.run core k s = .next t →
    t.driver = none → decodeImage s.addrBits c s.mem = .ok t.mem
end

