-- ==== Sys2Proof/Laws/Memory.lean ====
section
/-! SUPPORT. The laws of host memory: a read after a write, and every operation keeps the canonical form. -/

namespace Sys2Proof.Machine

@[simp] theorem read_write_same (m : Memory) (a : Nat) (v : Byte) : (m.write a v).read a = some v := by
  induction m with
  | nil => simp [Memory.write, Memory.read]
  | cons c m ih =>
    obtain ⟨b, u⟩ := c
    simp only [Memory.write]
    split
    · simp [Memory.read]
    · split
      · simp [Memory.read]
      · simp [Memory.read, *]

theorem read_write_ne (m : Memory) {a b : Nat} (v : Byte) (h : b ≠ a) : (m.write a v).read b = m.read b := by
  induction m with
  | nil => simp [Memory.write, Memory.read, h]
  | cons c m ih =>
    obtain ⟨x, u⟩ := c
    simp only [Memory.write]
    split
    · simp [Memory.read, h]
    · split
      · subst a
        simp [Memory.read, h]
      · simp only [Memory.read]
        split <;> simp [*]

/-- The head address of a memory, if any, is above `a`. -/
def headAbove (a : Nat) : Memory → Prop
  | [] => True
  | (b, _) :: _ => a < b

theorem wf_cons (a : Nat) (v : Byte) (m : Memory) :
    Memory.wf ((a, v) :: m) = true ↔ headAbove a m ∧ Memory.wf m = true := by
  cases m with
  | nil => simp [Memory.wf, headAbove]
  | cons c m => obtain ⟨b, u⟩ := c; simp [Memory.wf, headAbove]

theorem headAbove_write {a b : Nat} {v : Byte} {m : Memory} (hm : headAbove a m) (hb : a < b) :
    headAbove a (m.write b v) := by
  cases m with
  | nil => exact hb
  | cons c m =>
    obtain ⟨x, u⟩ := c
    simp only [Memory.write]
    split
    · exact hb
    · split
      · exact hb
      · exact hm

/-- A write keeps the canonical form. -/
theorem write_wf {m : Memory} (h : m.wf = true) (a : Nat) (v : Byte) : (m.write a v).wf = true := by
  induction m with
  | nil => rfl
  | cons c m ih =>
    obtain ⟨b, u⟩ := c
    have hb := (wf_cons b u m).1 h
    simp only [Memory.write]
    split
    · exact (wf_cons _ _ _).2 ⟨‹_›, h⟩
    · split
      · subst a
        exact (wf_cons _ _ _).2 hb
      · exact (wf_cons _ _ _).2 ⟨headAbove_write hb.1 (by omega), ih hb.2⟩

/-- Successive writes keep the canonical form. -/
theorem writeAll_wf {m : Memory} (h : m.wf = true) (l : List Host.Cell) : (m.writeAll l).wf = true := by
  induction l generalizing m with
  | nil => exact h
  | cons c l ih => exact ih (write_wf h c.1 c.2)

/-- Other agents' writes keep the canonical form. -/
theorem hostWrite_wf {m : Memory} (h : m.wf = true) (n : Nat) (l : List Host.Cell) :
    (Memory.hostWrite n m l).wf = true := writeAll_wf h _

/-- The scatter of a tile keeps the canonical form. -/
theorem scatter_wf {m : Memory} (h : m.wf = true) (c : Call) (k : Nat) (T : Tile) : (c.scatter m k T).wf = true :=
  writeAll_wf h _

/-- The memory of the state after reset is in canonical form. -/
theorem reset_mem_wf : State.reset.mem.wf = true := rfl

@[simp] theorem writeAll_nil (m : Memory) : m.writeAll [] = m := rfl
@[simp] theorem writeAll_cons (m : Memory) (c : Host.Cell) (l : List Host.Cell) :
    m.writeAll (c :: l) = (m.write c.1 c.2).writeAll l := rfl
theorem writeAll_append (m : Memory) (l l' : List Host.Cell) : m.writeAll (l ++ l') = (m.writeAll l).writeAll l' :=
  List.foldl_append

@[simp] theorem hostWrite_nil (n : Nat) (m : Memory) : Memory.hostWrite n m [] = m := rfl

/-- An address outside the written bytes reads as before. -/
theorem read_writeAll_of_notMem (m : Memory) (l : List Host.Cell) {a : Nat} (h : a ∉ l.map (·.1)) :
    (m.writeAll l).read a = m.read a := by
  induction l generalizing m with
  | nil => rfl
  | cons c l ih =>
    simp only [List.map_cons, List.mem_cons, not_or] at h
    rw [writeAll_cons, ih _ h.2, read_write_ne _ _ h.1]

/-- A write takes no value away. -/
theorem isSome_writeAll (m : Memory) (l : List Host.Cell) (a : Nat) (h : (m.read a).isSome = true) :
    ((m.writeAll l).read a).isSome = true := by
  induction l generalizing m with
  | nil => exact h
  | cons c l ih =>
    rw [writeAll_cons]
    apply ih
    by_cases hc : a = c.1
    · subst hc; simp
    · rw [read_write_ne _ _ hc]; exact h

/-- A write lists no address but the one it writes. -/
theorem mem_write {m : Memory} {a : Nat} {v : Byte} {c : Host.Cell} (h : c ∈ m.write a v) : c.1 = a ∨ c ∈ m := by
  induction m with
  | nil => simp [Memory.write] at h; simp [h]
  | cons x m ih =>
    obtain ⟨b, u⟩ := x
    simp only [Memory.write] at h
    split at h
    · simp at h; rcases h with h | h | h <;> simp [h]
    · split at h
      · simp at h; rcases h with h | h <;> simp [h]
      · simp at h
        rcases h with h | h
        · simp [h]
        · rcases ih h with h | h <;> simp [h]

/-- Successive writes list no address but those they write. -/
theorem mem_writeAll {m : Memory} {l : List Host.Cell} {c : Host.Cell} (h : c ∈ m.writeAll l) :
    c ∈ m ∨ c.1 ∈ l.map (·.1) := by
  induction l generalizing m with
  | nil => exact .inl h
  | cons x l ih =>
    rw [writeAll_cons] at h
    rcases ih h with h | h
    · rcases mem_write h with h | h
      · right; simp [h]
      · exact .inl h
    · right; simp at h ⊢; right; exact h

end Sys2Proof.Machine
end

