-- ==== Sys2Proof/Laws/State.lean ====
section
/-! SUPPORT. What each update of the state does to each field, true by definition, so that no proof unfolds a record
update. -/

namespace Sys2Proof.Machine

variable (s : State) (p : Inputs) (o : Outputs) (T : Tile)

@[simp] theorem tick_queue : (s.tick p o).queue = s.queue := rfl
@[simp] theorem tick_cycle : (s.tick p o).cycle = s.cycle + 1 := rfl
@[simp] theorem tick_accepted : (s.tick p o).accepted = s.accepted := rfl
@[simp] theorem tick_maxInflight : (s.tick p o).maxInflight = s.maxInflight := rfl
@[simp] theorem tick_latencies : (s.tick p o).latencies = s.latencies := rfl
@[simp] theorem tick_addrBits : (s.tick p o).addrBits = s.addrBits := rfl
@[simp] theorem tick_out : (s.tick p o).out = o := rfl
@[simp] theorem tick_inputs : (s.tick p o).inputs = s.inputs.tail := rfl
@[simp] theorem tick_calls : (s.tick p o).calls = s.calls ++ p.call.toList := rfl
@[simp] theorem tick_driver : (s.tick p o).driver =
    s.driver.map fun d => { d with raced := d.raced ++ p.hostWrites.map (·.1) } := rfl
@[simp] theorem tick_mem : (s.tick p o).mem = Memory.hostWrite s.addrBits s.mem p.hostWrites := rfl

@[simp] theorem noteAccepted_queue : s.noteAccepted.queue = s.queue := rfl
@[simp] theorem noteAccepted_cycle : s.noteAccepted.cycle = s.cycle := rfl
@[simp] theorem noteAccepted_accepted : s.noteAccepted.accepted = s.accepted := rfl
@[simp] theorem noteAccepted_maxInflight : s.noteAccepted.maxInflight = s.maxInflight := rfl
@[simp] theorem noteAccepted_latencies : s.noteAccepted.latencies = s.latencies := rfl
@[simp] theorem noteAccepted_addrBits : s.noteAccepted.addrBits = s.addrBits := rfl
@[simp] theorem noteAccepted_out : s.noteAccepted.out = s.out := rfl
@[simp] theorem noteAccepted_inputs : s.noteAccepted.inputs = s.inputs := rfl
@[simp] theorem noteAccepted_calls : s.noteAccepted.calls = s.calls := rfl
@[simp] theorem noteAccepted_driver : s.noteAccepted.driver =
    s.driver.map fun d => { d with offered := d.offered + 1 } := rfl
@[simp] theorem noteAccepted_mem : s.noteAccepted.mem = s.mem := rfl

@[simp] theorem receive_queue : (s.receive T).queue = s.queue := by unfold State.receive; split <;> rfl
@[simp] theorem receive_cycle : (s.receive T).cycle = s.cycle := by unfold State.receive; split <;> rfl
@[simp] theorem receive_accepted : (s.receive T).accepted = s.accepted := by unfold State.receive; split <;> rfl
@[simp] theorem receive_maxInflight : (s.receive T).maxInflight = s.maxInflight := by
  unfold State.receive; split <;> rfl
@[simp] theorem receive_latencies : (s.receive T).latencies = s.latencies := by unfold State.receive; split <;> rfl
@[simp] theorem receive_addrBits : (s.receive T).addrBits = s.addrBits := by unfold State.receive; split <;> rfl
@[simp] theorem receive_out : (s.receive T).out = s.out := by unfold State.receive; split <;> rfl
@[simp] theorem receive_inputs : (s.receive T).inputs = s.inputs := by unfold State.receive; split <;> rfl
@[simp] theorem receive_calls : (s.receive T).calls = s.calls := by unfold State.receive; split <;> rfl

theorem receive_idle (h : s.driver = none) : s.receive T = s := by simp [State.receive, h]

theorem receive_busy {d : Driver} (h : s.driver = some d) :
    (s.receive T).mem = d.call.scatter s.mem d.stored T ∧
      (s.receive T).driver =
        if d.stored + 1 < d.call.blocks then some { d with stored := d.stored + 1 } else none := by
  simp [State.receive, h]

@[simp] theorem deliverHead_queue : s.deliverHead.queue = s.queue.tail := by
  unfold State.deliverHead; split <;> simp [*]
@[simp] theorem deliverHead_cycle : s.deliverHead.cycle = s.cycle := by unfold State.deliverHead; split <;> simp
@[simp] theorem deliverHead_accepted : s.deliverHead.accepted = s.accepted := by
  unfold State.deliverHead; split <;> simp
@[simp] theorem deliverHead_maxInflight : s.deliverHead.maxInflight = s.maxInflight := by
  unfold State.deliverHead; split <;> simp
@[simp] theorem deliverHead_latencies : s.deliverHead.latencies = s.latencies := by
  unfold State.deliverHead; split <;> simp
@[simp] theorem deliverHead_addrBits : s.deliverHead.addrBits = s.addrBits := by
  unfold State.deliverHead; split <;> simp
@[simp] theorem deliverHead_inputs : s.deliverHead.inputs = s.inputs := by unfold State.deliverHead; split <;> simp
@[simp] theorem deliverHead_calls : s.deliverHead.calls = s.calls := by unfold State.deliverHead; split <;> simp

@[simp] theorem resetEdge_queue : s.resetEdge.queue = [] := rfl
@[simp] theorem resetEdge_cycle : s.resetEdge.cycle = s.cycle + 1 := rfl
@[simp] theorem resetEdge_accepted : s.resetEdge.accepted = s.accepted := rfl
@[simp] theorem resetEdge_maxInflight : s.resetEdge.maxInflight = s.maxInflight := rfl
@[simp] theorem resetEdge_latencies : s.resetEdge.latencies = s.latencies := rfl
@[simp] theorem resetEdge_addrBits : s.resetEdge.addrBits = s.addrBits := rfl
@[simp] theorem resetEdge_out : s.resetEdge.out = s.outputs := rfl
@[simp] theorem resetEdge_inputs : s.resetEdge.inputs = s.inputs.tail := rfl
@[simp] theorem resetEdge_calls : s.resetEdge.calls = s.calls ++ s.envInputs.call.toList := rfl
@[simp] theorem resetEdge_driver : s.resetEdge.driver =
    s.driver.map fun d => { d with raced := d.raced ++ s.envInputs.hostWrites.map (·.1) } := rfl
@[simp] theorem resetEdge_mem : s.resetEdge.mem = Memory.hostWrite s.addrBits s.mem s.envInputs.hostWrites := rfl

/-- Delivery with no call in progress takes the oldest entry and nothing else. -/
theorem deliverHead_idle (h : s.driver = none) : s.deliverHead = { s with queue := s.queue.tail } := by
  unfold State.deliverHead
  cases hq : s.queue with
  | nil => cases s; simp_all
  | cons e q => exact receive_idle _ _ h

/-- Delivery to the driver scatters the oldest tile and moves the driver's cursor. -/
theorem deliverHead_busy {d : Driver} {e : Entry} {q : List Entry} (h : s.driver = some d) (hq : s.queue = e :: q) :
    s.deliverHead.mem = d.call.scatter s.mem d.stored e.tile ∧
      s.deliverHead.driver = if d.stored + 1 < d.call.blocks then some { d with stored := d.stored + 1 } else none := by
  unfold State.deliverHead
  rw [hq]
  exact receive_busy _ e.tile (d := d) h

/-- Delivery from an empty `Q` does nothing. -/
theorem deliverHead_nil (h : s.queue = []) : s.deliverHead = s := by simp [State.deliverHead, h]

variable (s0 : State) (off : Bool)

@[simp] theorem clockEdge_queue : (s0.clockEdge off s).queue = if s0.delivers then s.queue.tail else s.queue := by
  unfold State.clockEdge; simp only [tick_queue]; split <;> split <;> simp
@[simp] theorem clockEdge_cycle : (s0.clockEdge off s).cycle = s.cycle + 1 := by
  unfold State.clockEdge; simp only [tick_cycle]; split <;> split <;> simp
@[simp] theorem clockEdge_accepted : (s0.clockEdge off s).accepted = s.accepted := by
  unfold State.clockEdge; simp only [tick_accepted]; split <;> split <;> simp
@[simp] theorem clockEdge_maxInflight : (s0.clockEdge off s).maxInflight = s.maxInflight := by
  unfold State.clockEdge; simp only [tick_maxInflight]; split <;> split <;> simp
@[simp] theorem clockEdge_latencies : (s0.clockEdge off s).latencies = s.latencies := by
  unfold State.clockEdge; simp only [tick_latencies]; split <;> split <;> simp
@[simp] theorem clockEdge_addrBits : (s0.clockEdge off s).addrBits = s.addrBits := by
  unfold State.clockEdge; simp only [tick_addrBits]; split <;> split <;> simp
@[simp] theorem clockEdge_out : (s0.clockEdge off s).out = s0.outputs := rfl
@[simp] theorem clockEdge_inputs : (s0.clockEdge off s).inputs = s.inputs.tail := by
  unfold State.clockEdge; simp only [tick_inputs]; split <;> split <;> simp
@[simp] theorem clockEdge_calls : (s0.clockEdge off s).calls = s.calls ++ s0.envInputs.call.toList := by
  unfold State.clockEdge; simp only [tick_calls]; split <;> split <;> simp

end Sys2Proof.Machine
end

