-- ==== Sys2Proof/Laws/Ops.lean ====
section
/-! SUPPORT. One lemma for each shared operation that says once everything it can do. -/

namespace Sys2Proof.Machine

/-- The state after the acceptance of a block. -/
def accepting (blk : Block) (tile : Tile) (s : State) : State :=
  { s with
    queue := s.queue ++ [{ blk := blk, tile := tile, nAcc := s.cycle, lat := s.latency }]
    accepted := s.accepted + 1 }

/-- `accept` answers a next state: the block is entered at the end of `Q`, or, with `in_ready` = 0, nothing changes. -/
theorem accept_eq (blk : Block) (tile : Tile) (s : State) :
    accept blk tile s = .next (if s.inReady then accepting blk tile s else s) := by
  unfold accept accepting; split <;> rfl

/-- Every meaning is the acceptance of the instruction's block with its tile. -/
theorem exec_eq_accept (i : Instr) (s : State) : exec i s = accept (encode i) i.tile s := by
  cases i <;> rfl

/-- `exec` always answers a next state (`60_exceptions.md` R250). -/
theorem exec_eq (i : Instr) (s : State) :
    exec i s = .next (if s.inReady then accepting (encode i) i.tile s else s) := by
  rw [exec_eq_accept, accept_eq]

/-- One clock cycle with `rst` = 0, by what is on offer. -/
theorem runCycle_eq (s : State) :
    runCycle s =
      match s.offer with
      | .error f => .fault f
      | .ok none => .next (s.clockEdge false s)
      | .ok (some b) =>
        .next (s.clockEdge true (if s.inReady then accepting (encode (decode b)) (decode b).tile s else s)) := by
  unfold runCycle
  cases s.offer with
  | error f => rfl
  | ok b =>
    cases b with
    | none => rfl
    | some b =>
      show (match exec (decode b) s with
        | .next t => Host.Outcome.next (s.clockEdge true t)
        | .fault f => .fault f
        | .refused r => .refused r) = _
      rw [exec_eq]

/-- Everything a step can answer a next state with: the start of a call, a reset edge, or the end of a cycle with or
without a block on offer. -/
theorem step_cases {s t : State} (h : step s = .next t) :
    (s.callStarts = true ∧ startCall s = .next t) ∨
    (s.callStarts = false ∧ s.rst = true ∧ t = s.resetEdge) ∨
    (s.callStarts = false ∧ s.rst = false ∧ s.offer = .ok none ∧ t = s.clockEdge false s) ∨
    (∃ b, s.callStarts = false ∧ s.rst = false ∧ s.offer = .ok (some b) ∧
      t = s.clockEdge true (if s.inReady then accepting (encode (decode b)) (decode b).tile s else s)) := by
  unfold step at h
  split at h
  · exact .inl ⟨‹_›, h⟩
  · split at h
    · exact .inr (.inl ⟨by simpa using ‹¬ s.callStarts = true›, ‹_›, by simpa using h.symm⟩)
    · rw [runCycle_eq] at h
      split at h
      · cases h
      · exact .inr (.inr (.inl ⟨by simpa using ‹¬ s.callStarts = true›, by simpa using ‹¬ s.rst = true›, ‹_›,
          by simpa using h.symm⟩))
      · exact .inr (.inr (.inr ⟨_, by simpa using ‹¬ s.callStarts = true›, by simpa using ‹¬ s.rst = true›, ‹_›,
          by simpa using h.symm⟩))

/-- The start of a call, when it answers a next state: the call is in contract and the machine is idle. -/
theorem startCall_cases {s t : State} (hs : s.callStarts = true) (h : startCall s = .next t) :
    ∃ c rest, s.calls = c :: rest ∧ s.driver = none ∧ s.queue = [] ∧ c.violation s.addrBits s.mem = none ∧
      t = { s with
        calls := rest
        driver := if c.blocks = 0 then none else some { call := c, offered := 0, stored := 0, raced := [] } } := by
  unfold State.callStarts at hs
  split at hs
  · rename_i c rest hd hc hq
    unfold startCall at h
    rw [hc] at h
    simp only at h
    split at h
    · cases h
    · exact ⟨c, rest, hc, hd, hq, ‹_›, by simpa using h.symm⟩
  · cases hs

/-- What is on offer, when something is: the environment's block, or the driver's next one. -/
theorem offer_some {s : State} {b : Block} (h : s.offer = .ok (some b)) :
    s.envInputs.inValid = true ∧
      ((s.driver = none ∧ b = s.envInputs.inBlock) ∨
        ∃ d, s.driver = some d ∧ d.offered < d.call.blocks ∧ fetchBlock s d = .ok b) := by
  unfold State.offer at h
  split at h
  · refine ⟨‹_›, ?_⟩
    split at h
    · exact .inl ⟨‹_›, by simpa using h.symm⟩
    · rename_i d hd
      split at h
      · split at h
        · cases h
        · exact .inr ⟨d, hd, ‹_›, by simp_all⟩
      · simp at h
  · simp at h

/-- `in_ready` is 1 exactly when `rst` is 0 and `Q` has room. -/
theorem inReady_iff (s : State) : s.inReady = true ↔ s.rst = false ∧ s.queue.length < s.maxInflight := by
  simp [State.inReady, State.room]; omega

/-- `out_valid` is 1 exactly when `rst` is 0 and the oldest entry has waited its latency. -/
theorem outValid_iff (s : State) :
    s.outValid = true ↔ s.rst = false ∧ ∃ e q, s.queue = e :: q ∧ e.nAcc + e.lat ≤ s.cycle := by
  unfold State.outValid
  cases h : s.queue with
  | nil => simp
  | cons e q => simp [Entry.due]

/-- While `out_valid` is 1, `out_texels` is the formatted tile of the oldest entry. -/
theorem outTexels_valid {s : State} {e : Entry} {q : List Entry} (hv : s.outValid = true) (hq : s.queue = e :: q) :
    s.outTexels = formatTile e.tile := by
  simp [State.outTexels, hv, hq]

end Sys2Proof.Machine
end

