-- ==== Sys2Proof/Laws/Driver.lean ====
section
/-! SUPPORT. The image driver: what the contract check says, where a tile goes, and when a fetch answers bytes. -/

namespace Sys2Proof.Machine

/-- An empty image whose operands pass is in contract (`47_image_driver.md` R238). -/
theorem violation_of_isEmpty {c : Call} (h : c.isEmpty = true) (hw : c.w % 4 = 0) (hh : c.h % 4 = 0)
    (hp : 4 * c.w ≤ c.pitch) (n : Nat) (m : Memory) : c.violation n m = none := by
  simp [Call.violation, h, hw, hh, hp]

/-- An image with a block is not empty. -/
theorem isEmpty_of_blocks {c : Call} (h : 0 < c.blocks) : c.isEmpty = false := by
  have h1 := Nat.pos_of_mul_pos_right h
  have h2 := Nat.pos_of_mul_pos_left h
  simp only [Call.isEmpty, Bool.or_eq_false_iff, beq_eq_false_iff_ne, ne_eq]
  omega

/-- What an in-contract call satisfies (`47_image_driver.md` R231, R238, R240). -/
theorem violation_none {c : Call} {n : Nat} {m : Memory} (h : c.violation n m = none) :
    c.w % 4 = 0 ∧ c.h % 4 = 0 ∧ 4 * c.w ≤ c.pitch ∧
      (c.isEmpty = false →
        (c.dstBytes = 0 ∨ c.dst + c.dstBytes ≤ 2 ^ n) ∧ (c.srcBytes = 0 ∨ c.src + c.srcBytes ≤ 2 ^ n) ∧
        (∀ j < c.srcBytes, (m.read (c.src + j)).isSome = true) ∧
        (c.srcBytes = 0 ∨ c.dstBytes = 0 ∨ c.src + c.srcBytes ≤ c.dst ∨ c.dst + c.dstBytes ≤ c.src)) := by
  unfold Call.violation at h
  split at h; · cases h
  split at h; · cases h
  split at h; · cases h
  refine ⟨by omega, by omega, by omega, fun he => ?_⟩
  rw [he, if_neg Bool.false_ne_true] at h
  split at h; · cases h
  split at h; · cases h
  split at h; · cases h
  rename_i h4 h5 h6
  simp [bufferExists, bufferReadable, buffersDisjoint] at h4 h5 h6
  exact ⟨by omega, by omega, fun j hj => by simpa [Option.isSome_iff_ne_none] using h5.2 j hj, by omega⟩

/-- A call in contract stays so while bytes only gain values. -/
theorem violation_mono {c : Call} {n : Nat} {m m' : Memory} (h : c.violation n m = none)
    (hm : ∀ a, (m.read a).isSome = true → (m'.read a).isSome = true) : c.violation n m' = none := by
  unfold Call.violation at h ⊢
  split at h; · cases h
  split at h; · cases h
  split at h; · cases h
  rename_i h1 h2 h3
  rw [if_neg h1, if_neg h2, if_neg h3]
  split at h
  · rw [if_pos ‹_›]
  rename_i he
  rw [if_neg he]
  split at h; · cases h
  split at h; · cases h
  split at h; · cases h
  rename_i h4 h5 h6
  rw [if_neg h4, if_neg, if_neg h6]
  simp only [Bool.not_and, Bool.or_eq_true, Bool.not_eq_true', not_or, Bool.not_eq_false] at h5 ⊢
  refine ⟨h5.1, ?_⟩
  unfold bufferReadable at *
  rw [List.all_eq_true] at *
  exact fun j hj => hm _ (h5.2 j hj)

/-- The bytes a scatter writes are the 64 destination addresses of its tile (`47_image_driver.md` R233). -/
theorem tileCells_addr (c : Call) (k : Nat) (T : Tile) {a : Nat} (h : a ∈ (c.tileCells k T).map (·.1)) :
    ∃ t ch, t < 16 ∧ ch < 4 ∧ a = c.dstAddr k t ch := by
  simp only [Call.tileCells, List.map_map, List.mem_map, List.mem_range, Function.comp] at h
  obtain ⟨j, hj, rfl⟩ := h
  exact ⟨j / 4, j % 4, by omega, by omega, rfl⟩

/-- Every destination address of an in-contract call lies in the destination buffer and in the address space
(`47_image_driver.md` R231, R233). -/
theorem dst_bound {c : Call} {n : Nat} {m : Memory} (h : c.violation n m = none) {k t ch : Nat}
    (hk : k < c.blocks) (ht : t < 16) (hch : ch < 4) :
    c.dstAddr k t ch < 2 ^ n ∧ c.dst ≤ c.dstAddr k t ch ∧ c.dstAddr k t ch < c.dst + c.dstBytes := by
  obtain ⟨hw, hh, hp, hb⟩ := violation_none h
  have hd := (hb (isEmpty_of_blocks (Nat.zero_lt_of_lt hk))).1
  unfold Call.blocks at hk
  have hr : 0 < c.w / 4 := by
    rcases Nat.eq_zero_or_pos (c.w / 4) with h0 | h0
    · rw [h0] at hk; omega
    · exact h0
  have hx := Nat.mod_lt k hr
  have hy : k / (c.w / 4) < c.h / 4 := Nat.div_lt_of_lt_mul hk
  have key : c.dstAddr k t ch < c.dst + c.dstBytes ∧ c.dst ≤ c.dstAddr k t ch := by
    unfold Call.dstAddr Call.dstBytes Call.rowBlocks
    generalize k % (c.w / 4) = bx at *
    generalize k / (c.w / 4) = byy at *
    have h1 : 4 * byy + t / 4 + 1 ≤ c.h := by omega
    have h2 : (4 * bx + t % 4) * 4 + ch < c.pitch := by omega
    have h3 := Nat.mul_le_mul_right c.pitch h1
    rw [Nat.add_mul, Nat.one_mul] at h3
    rw [Nat.mul_comm c.pitch c.h]
    constructor <;> omega
  refine ⟨?_, key.2, key.1⟩
  rcases hd with hd | hd <;> omega

/-- A fetch from bytes that all have values answers bytes. -/
theorem fetchBytes_ok {s : State} {d : Driver} (l : List Nat) (h : ∀ a ∈ l, (s.mem.read a).isSome = true) :
    ∃ v, fetchBytes s d l = .ok v := by
  induction l with
  | nil => exact ⟨_, rfl⟩
  | cons a l ih =>
    obtain ⟨vs, hvs⟩ := ih fun x hx => h x (by simp [hx])
    have : ∃ v, fetchByte s d a = .ok v := by
      unfold fetchByte
      split
      · exact ⟨_, rfl⟩
      · have := h a (by simp)
        cases hh : s.mem.read a with
        | none => rw [hh] at this; cases this
        | some v => exact ⟨v, rfl⟩
    obtain ⟨v, hv⟩ := this
    exact ⟨v :: vs, by simp [fetchBytes, hv, hvs]⟩

end Sys2Proof.Machine
end

