-- ==== Sys2Proof/Laws/Encoding.lean ====
section
/-! SUPPORT. The bitstream reader against the packer: where the cursor goes, how large a field is, and that each undoes the
other on the fields of one section of a block. -/

namespace Sys2Proof

open Sys2Proof.Machine

@[simp] theorem readFields_nil (blk c : Nat) : readFields blk c [] = ([], c) := rfl

@[simp] theorem readFields_cons (blk c w : Nat) (ws : List Nat) :
    readFields blk c (w :: ws) =
      ((blk >>> c) % 2 ^ w :: (readFields blk (c + w) ws).1, (readFields blk (c + w) ws).2) := rfl

/-- The cursor advances by exactly the widths of the fields read (`10_state.md` R25). -/
theorem readFields_cursor (blk c : Nat) (ws : List Nat) : (readFields blk c ws).2 = c + ws.sum := by
  induction ws generalizing c with
  | nil => simp
  | cons w ws ih => simp [ih, Nat.add_assoc]

@[simp] theorem readFields_length (blk c : Nat) (ws : List Nat) : (readFields blk c ws).1.length = ws.length := by
  induction ws generalizing c with
  | nil => simp
  | cons w ws ih => simp [ih]

/-- Field `k` of a section stands behind the widths of the fields before it (`30_encoding.md` R76). -/
theorem readFields_get (blk c : Nat) (ws : List Nat) (k : Nat) (h : k < ws.length) :
    (readFields blk c ws).1[k]? = some ((blk >>> (c + (ws.take k).sum)) % 2 ^ ws[k]) := by
  induction ws generalizing c k with
  | nil => simp at h
  | cons w ws ih =>
    cases k with
    | zero => simp
    | succ k => simp [ih (c + w) k (by simpa using h), Nat.add_assoc]

/-- A field read is below the range of its width, and of any larger width. -/
theorem readFields_lt (blk c : Nat) (ws : List Nat) (n : Nat) (h : ∀ w ∈ ws, w ≤ n) :
    ∀ v ∈ (readFields blk c ws).1, v < 2 ^ n := by
  induction ws generalizing c with
  | nil => simp
  | cons w ws ih =>
    simp only [readFields_cons, List.mem_cons, forall_eq_or_imp]
    exact ⟨Nat.lt_of_lt_of_le (Nat.mod_lt _ (Nat.two_pow_pos w)) (Nat.pow_le_pow_right (by omega) (h w (by simp))),
      ih _ fun w' hw => h w' (by simp [hw])⟩

@[simp] theorem pack_nil : pack [] = 0 := rfl

@[simp] theorem pack_cons (v w : Nat) (l : List (Nat × Nat)) : pack ((v, w) :: l) = v % 2 ^ w + 2 ^ w * pack l := rfl

/-- A packed section fits its widths. -/
theorem pack_lt (l : List (Nat × Nat)) : pack l < 2 ^ (l.map (·.2)).sum := by
  induction l with
  | nil => simp
  | cons c l ih =>
    obtain ⟨v, w⟩ := c
    have hv := Nat.mod_lt v (Nat.two_pow_pos w)
    simp only [pack_cons, List.map_cons, List.sum_cons, Nat.pow_add]
    calc v % 2 ^ w + 2 ^ w * pack l < 2 ^ w + 2 ^ w * pack l := by omega
      _ = 2 ^ w * (pack l + 1) := by ring
      _ ≤ 2 ^ w * 2 ^ (l.map (·.2)).sum := Nat.mul_le_mul_left _ ih

/-- Reading a packed section gives its values back and leaves the cursor at the next section. -/
theorem readFields_pack (blk c : Nat) (vs ws : List Nat) (rest : List (Nat × Nat)) (hl : vs.length = ws.length)
    (hv : ∀ p ∈ vs.zip ws, p.1 < 2 ^ p.2) (h : blk >>> c = pack (vs.zip ws ++ rest)) :
    (readFields blk c ws).1 = vs ∧ blk >>> (c + ws.sum) = pack rest := by
  induction ws generalizing vs c with
  | nil =>
    obtain rfl : vs = [] := by simpa using hl
    simpa using h
  | cons w ws ih =>
    obtain ⟨v, vs, rfl⟩ : ∃ v vs', vs = v :: vs' := by cases vs <;> simp_all
    simp only [List.zip_cons_cons, List.cons_append, pack_cons, List.mem_cons, forall_eq_or_imp] at h hv
    have hw := Nat.two_pow_pos w
    rw [Nat.mod_eq_of_lt hv.1] at h
    have hs : blk >>> (c + w) = pack (vs.zip ws ++ rest) := by
      rw [Nat.shiftRight_add, h, Nat.shiftRight_eq_div_pow, Nat.add_mul_div_left _ _ hw, Nat.div_eq_of_lt hv.1,
        Nat.zero_add]
    obtain ⟨h1, h2⟩ := ih (c + w) vs (by simpa using hl) hv.2 hs
    refine ⟨?_, by simpa [Nat.add_assoc] using h2⟩
    rw [readFields_cons, h1, h, Nat.add_mul_mod_self_left, Nat.mod_eq_of_lt hv.1]

/-- Packing what was read gives the bits of the section back. -/
theorem pack_readFields (blk c : Nat) (ws : List Nat) (rest : List (Nat × Nat)) :
    pack ((readFields blk c ws).1.zip ws ++ rest) = (blk >>> c) % 2 ^ ws.sum + 2 ^ ws.sum * pack rest := by
  induction ws generalizing c with
  | nil => simp [Nat.mod_one]
  | cons w ws ih =>
    simp only [readFields_cons, List.zip_cons_cons, List.cons_append, pack_cons, ih, Nat.mod_mod, List.sum_cons,
      Nat.shiftRight_eq_div_pow, Nat.pow_add, Nat.mod_mul, Nat.div_div_eq_div_mul]
    ring

/-- The sum of the primary index widths depends on the number of anchors only (`43_index_unpack.md` R164). -/
theorem primaryWidths_sum :
    (∀ p, p < 16 → (primaryWidths (modeDesc 0) p).sum = 45) ∧
      ∀ p, p < 64 → (primaryWidths (modeDesc 1) p).sum = 46 ∧ (primaryWidths (modeDesc 2) p).sum = 29 ∧
        (primaryWidths (modeDesc 3) p).sum = 30 ∧ (primaryWidths (modeDesc 7) p).sum = 30 := by
  decide +kernel

/-- In the modes without partitions the widths are fixed (`43_index_unpack.md` R164). -/
theorem indexWidths_sum (p : Nat) :
    (primaryWidths (modeDesc 4) p).sum = 31 ∧ (primaryWidths (modeDesc 5) p).sum = 31 ∧
      (primaryWidths (modeDesc 6) p).sum = 63 ∧ (secondaryWidths (modeDesc 4)).sum = 47 ∧
      (secondaryWidths (modeDesc 5)).sum = 31 := by
  have h : ∀ m, (modeDesc m).partitionCount = 1 → primaryWidths (modeDesc m) p = primaryWidths (modeDesc m) 0 := by
    intro m hm
    simp [primaryWidths, isAnchor, anchors, hm]
  rw [h 4 rfl, h 5 rfl, h 6 rfl]
  decide +kernel

/-- The values of bit vectors are below the range of their width. -/
theorem map_toNat_lt {w : Nat} (l : List (BitVec w)) : ∀ v ∈ l.map (·.toNat), v < 2 ^ w := by
  simp only [List.mem_map, forall_exists_index, and_imp]
  rintro v x - rfl
  exact x.isLt

/-- Values below the range survive the trip through bit vectors. -/
theorem toWidth_toNat (w : Nat) (l : List Nat) (h : ∀ v ∈ l, v < 2 ^ w) : (toWidth w l).map (·.toNat) = l := by
  induction l with
  | nil => rfl
  | cons v l ih =>
    simp only [toWidth, List.map_cons, List.map_map] at ih ⊢
    rw [BitVec.toNat_ofNat, Nat.mod_eq_of_lt (h v (by simp)), ih fun v' hv => h v' (by simp [hv])]

/-- Bit vectors survive the trip through their values. -/
theorem toNat_toWidth {w : Nat} (l : List (BitVec w)) : toWidth w (l.map (·.toNat)) = l := by
  simp [toWidth, Function.comp_def]

/-- Fields of one width are below its range. -/
theorem readFields_replicate_lt (blk c n w : Nat) : ∀ v ∈ (readFields blk c (List.replicate n w)).1, v < 2 ^ w :=
  readFields_lt _ _ _ _ fun x hx => by rw [List.eq_of_mem_replicate hx]

/-- A primary index is below the range of its set (`30_encoding.md` R66). -/
theorem primary_lt (blk c : Nat) (D : ModeDesc) (p : Nat) :
    ∀ v ∈ (readFields blk c (primaryWidths D p)).1, v < 2 ^ D.colorIndexBits := by
  apply readFields_lt
  intro w hw
  simp only [primaryWidths, List.mem_map, List.mem_range] at hw
  obtain ⟨t, -, rfl⟩ := hw
  split <;> omega

/-- A secondary index is below the range of its set (`30_encoding.md` R67). -/
theorem secondary_lt (blk c : Nat) (D : ModeDesc) :
    ∀ v ∈ (readFields blk c (secondaryWidths D)).1, v < 2 ^ D.alphaIndexBits := by
  apply readFields_lt
  intro w hw
  simp only [secondaryWidths] at hw
  split at hw
  · simp at hw
  · simp only [List.mem_map, List.mem_range] at hw
    obtain ⟨t, -, rfl⟩ := hw
    split <;> omega

/-- Everything `unpack` answers: each section of the block read at the sum of the widths before it
(`30_encoding.md` R62, `40_mode_select_bitstream.md` R104). -/
theorem unpack_eq (m blk : Nat) :
    let D := modeDesc m
    let c1 := m + 1 + D.partitionBits
    let c2 := c1 + D.rotationBits
    let c3 := c2 + D.indexSelectionBits
    let cw := (colorWidths D).sum
    let c7 := c3 + cw + cw + cw + (alphaWidths D).sum
    let c8 := c7 + (pBitWidths D).sum
    let part := (blk >>> (m + 1)) % 2 ^ D.partitionBits
    let c9 := c8 + (primaryWidths D part).sum
    unpack m blk =
      ({ part := part
         rot := (blk >>> c1) % 2 ^ D.rotationBits
         isel := (blk >>> c2) % 2 ^ D.indexSelectionBits
         r := (readFields blk c3 (colorWidths D)).1
         g := (readFields blk (c3 + cw) (colorWidths D)).1
         b := (readFields blk (c3 + cw + cw) (colorWidths D)).1
         a := (readFields blk (c3 + cw + cw + cw) (alphaWidths D)).1
         pbits := (readFields blk c7 (pBitWidths D)).1
         idx1 := (readFields blk c8 (primaryWidths D part)).1
         idx2 := (readFields blk c9 (secondaryWidths D)).1 }, c9 + (secondaryWidths D).sum) := by
  simp only [unpack, readBits, readFields_cursor, Nat.zero_add]

/-- The mode selector answers `m` below 8 exactly when bit `m` is the lowest set one
(`40_mode_select_bitstream.md` R100). -/
theorem modeSelect_lt {x m : Nat} (hm : m < 8) :
    modeSelect x = m ↔ x.testBit m = true ∧ ∀ j < m, x.testBit j = false := by
  unfold modeSelect
  constructor
  · intro h
    cases hf : (List.range 8).find? (fun k => x.testBit k) with
    | none => rw [hf] at h; simp at h; omega
    | some k =>
      rw [hf] at h; simp at h; subst h
      rw [List.find?_range_eq_some] at hf
      exact ⟨by simpa using hf.1, fun j hj => by simpa using hf.2.2 j hj⟩
  · rintro ⟨h1, h2⟩
    have : (List.range 8).find? (fun k => x.testBit k) = some m := by
      rw [List.find?_range_eq_some]
      exact ⟨by simpa using h1, by simpa using hm, fun j hj => by simpa using h2 j hj⟩
    rw [this]; rfl

theorem modeSelect_le (x : Nat) : modeSelect x ≤ 8 := by
  unfold modeSelect
  cases hf : (List.range 8).find? (fun k => x.testBit k) with
  | none => simp
  | some k =>
    have := List.mem_of_find?_eq_some hf
    simp at this ⊢; omega

/-- The constructor that `ofFields` gives a mode number is that mode's. -/
theorem ofFields_mode (m : Nat) (hm : m < 8) (f : Fields) : (Instr.ofFields m f).mode = m := by
  match m, hm with
  | 0, _ | 1, _ | 2, _ | 3, _ | 4, _ | 5, _ | 6, _ | 7, _ => rfl

/-- The mode of the decoded instruction is the selected one. -/
theorem decode_mode (b : Block) : (decode b).mode = modeSelect b.toNat := by
  unfold decode
  simp only
  split
  · rename_i h; rw [h]; rfl
  · exact ofFields_mode _ (by have := modeSelect_le b.toNat; omega) _

/-- The block of an instruction of modes 0 to 7 packs its layout. -/
theorem encode_eq (i : Instr) (h : i.mode ≠ 8) : encode i = BitVec.ofNat 128 (pack (fieldLayout i.mode i.fields)) := by
  cases i with
  | invalid => exact absurd rfl h
  | _ => simp only [encode]

end Sys2Proof
end

