-- ==== Sys2Proof/Laws/PerInstr.lean ====
section
/-! SUPPORT. Statements about every instruction, one lemma a constructor: a well-formed term's fields have the widths of
`30_encoding.md` R62–R67, and these fill the block (R77). -/

namespace Sys2Proof.Laws.FillsBlock

open Sys2Proof.Machine

/-- The widths of the fields of a well-formed instruction sum to 128 (`30_encoding.md` R77); INVALID has no fields. -/
def Statement (i : Instr) : Prop :=
  i.wf = true → i.mode = 8 ∨ ((fieldLayout i.mode i.fields).map (·.2)).sum = 128

theorem snd_zip {l ws : List Nat} (h : l.length = ws.length) : (l.zip ws).map (·.2) = ws :=
  List.map_snd_zip (by omega)

/-- The total width, section by section, of fields whose counts are those of the mode. -/
theorem layout_sum (m : Nat) (f : Fields) (hr : f.r.length = (colorWidths (modeDesc m)).length)
    (hg : f.g.length = (colorWidths (modeDesc m)).length) (hb : f.b.length = (colorWidths (modeDesc m)).length)
    (ha : f.a.length = (alphaWidths (modeDesc m)).length) (hp : f.pbits.length = (pBitWidths (modeDesc m)).length)
    (h1 : f.idx1.length = (primaryWidths (modeDesc m) f.part).length)
    (h2 : f.idx2.length = (secondaryWidths (modeDesc m)).length) :
    ((fieldLayout m f).map (·.2)).sum =
      (m + 1) + (modeDesc m).partitionBits + (modeDesc m).rotationBits + (modeDesc m).indexSelectionBits +
        3 * (colorWidths (modeDesc m)).sum + (alphaWidths (modeDesc m)).sum + (pBitWidths (modeDesc m)).sum +
        (primaryWidths (modeDesc m) f.part).sum + (secondaryWidths (modeDesc m)).sum := by
  simp only [fieldLayout, List.map_append, List.sum_append, snd_zip hr, snd_zip hg, snd_zip hb, snd_zip ha, snd_zip hp,
    snd_zip h1, snd_zip h2, List.map_cons, List.map_nil, List.sum_cons, List.sum_nil]
  omega

@[simp] theorem primaryWidths_length (D : ModeDesc) (p : Nat) : (primaryWidths D p).length = 16 := by
  simp [primaryWidths]

theorem mode0 (part : BitVec 4) (r g b : List (BitVec 4)) (p : List (BitVec 1)) (idx : List (BitVec 3)) :
    Statement (.mode0 part r g b p idx) := by
  intro h
  simp only [Instr.wf, colorsOk, indexSetOk, Bool.and_eq_true, beq_iff_eq] at h
  refine .inr ?_
  rw [Instr.mode, layout_sum]
  · simp only [Instr.fields]
    rw [primaryWidths_sum.1 _ part.isLt]
    rfl
  all_goals simp [Instr.fields, h, colorWidths, alphaWidths, pBitWidths, secondaryWidths, modeDesc,
    ModeDesc.endpointCount, ModeDesc.pBitCount]

theorem mode1 (part : BitVec 6) (r g b : List (BitVec 6)) (p : List (BitVec 1)) (idx : List (BitVec 3)) :
    Statement (.mode1 part r g b p idx) := by
  intro h
  simp only [Instr.wf, colorsOk, indexSetOk, Bool.and_eq_true, beq_iff_eq] at h
  refine .inr ?_
  rw [Instr.mode, layout_sum]
  · simp only [Instr.fields]
    rw [(primaryWidths_sum.2 _ part.isLt).1]
    rfl
  all_goals simp [Instr.fields, h, colorWidths, alphaWidths, pBitWidths, secondaryWidths, modeDesc,
    ModeDesc.endpointCount, ModeDesc.pBitCount]

theorem mode2 (part : BitVec 6) (r g b : List (BitVec 5)) (idx : List (BitVec 2)) :
    Statement (.mode2 part r g b idx) := by
  intro h
  simp only [Instr.wf, colorsOk, indexSetOk, Bool.and_eq_true, beq_iff_eq] at h
  refine .inr ?_
  rw [Instr.mode, layout_sum]
  · simp only [Instr.fields]
    rw [(primaryWidths_sum.2 _ part.isLt).2.1]
    rfl
  all_goals simp [Instr.fields, h, colorWidths, alphaWidths, pBitWidths, secondaryWidths, modeDesc,
    ModeDesc.endpointCount, ModeDesc.pBitCount]

theorem mode3 (part : BitVec 6) (r g b : List (BitVec 7)) (p : List (BitVec 1)) (idx : List (BitVec 2)) :
    Statement (.mode3 part r g b p idx) := by
  intro h
  simp only [Instr.wf, colorsOk, indexSetOk, Bool.and_eq_true, beq_iff_eq] at h
  refine .inr ?_
  rw [Instr.mode, layout_sum]
  · simp only [Instr.fields]
    rw [(primaryWidths_sum.2 _ part.isLt).2.2.1]
    rfl
  all_goals simp [Instr.fields, h, colorWidths, alphaWidths, pBitWidths, secondaryWidths, modeDesc,
    ModeDesc.endpointCount, ModeDesc.pBitCount]

theorem mode4 (rot : BitVec 2) (isel : BitVec 1) (r g b : List (BitVec 5)) (a : List (BitVec 6))
    (idx1 : List (BitVec 2)) (idx2 : List (BitVec 3)) : Statement (.mode4 rot isel r g b a idx1 idx2) := by
  intro h
  simp only [Instr.wf, colorsOk, indexSetOk, Bool.and_eq_true, beq_iff_eq] at h
  refine .inr ?_
  rw [Instr.mode, layout_sum]
  · simp only [Instr.fields]
    rw [(indexWidths_sum _).1]
    rfl
  all_goals simp [Instr.fields, h, colorWidths, alphaWidths, pBitWidths, secondaryWidths, modeDesc,
    ModeDesc.endpointCount, ModeDesc.pBitCount]

theorem mode5 (rot : BitVec 2) (r g b : List (BitVec 7)) (a : List (BitVec 8)) (idx1 idx2 : List (BitVec 2)) :
    Statement (.mode5 rot r g b a idx1 idx2) := by
  intro h
  simp only [Instr.wf, colorsOk, indexSetOk, Bool.and_eq_true, beq_iff_eq] at h
  refine .inr ?_
  rw [Instr.mode, layout_sum]
  · simp only [Instr.fields]
    rw [(indexWidths_sum _).2.1]
    rfl
  all_goals simp [Instr.fields, h, colorWidths, alphaWidths, pBitWidths, secondaryWidths, modeDesc,
    ModeDesc.endpointCount, ModeDesc.pBitCount]

theorem mode6 (r g b a : List (BitVec 7)) (p : List (BitVec 1)) (idx : List (BitVec 4)) :
    Statement (.mode6 r g b a p idx) := by
  intro h
  simp only [Instr.wf, colorsOk, indexSetOk, Bool.and_eq_true, beq_iff_eq] at h
  refine .inr ?_
  rw [Instr.mode, layout_sum]
  · simp only [Instr.fields]
    rw [(indexWidths_sum _).2.2.1]
    rfl
  all_goals simp [Instr.fields, h, colorWidths, alphaWidths, pBitWidths, secondaryWidths, modeDesc,
    ModeDesc.endpointCount, ModeDesc.pBitCount]

theorem mode7 (part : BitVec 6) (r g b a : List (BitVec 5)) (p : List (BitVec 1)) (idx : List (BitVec 2)) :
    Statement (.mode7 part r g b a p idx) := by
  intro h
  simp only [Instr.wf, colorsOk, indexSetOk, Bool.and_eq_true, beq_iff_eq] at h
  refine .inr ?_
  rw [Instr.mode, layout_sum]
  · simp only [Instr.fields]
    rw [(primaryWidths_sum.2 _ part.isLt).2.2.2]
    rfl
  all_goals simp [Instr.fields, h, colorWidths, alphaWidths, pBitWidths, secondaryWidths, modeDesc,
    ModeDesc.endpointCount, ModeDesc.pBitCount]

theorem invalid (rest : BitVec 120) : Statement (.invalid rest) := fun _ => .inl rfl

end Sys2Proof.Laws.FillsBlock
end

