-- ==== Sys2Proof/Tests/Slice0.lean ====
section
/-! SUPPORT. Tests. Every expected value is a vector of `spec/95_test_vectors.md` or is worked out by hand from the rule named
in the docstring. The theorems named `witness_<statement>` meet the hypotheses of the obligation of that name. -/

namespace Sys2Proof.Tests

open Sys2Proof.Machine

-- One theorem at a time: many kernel evaluations at once take more threads than the memory limit leaves room for.
set_option Elab.async false

/-- A texel as `95_test_vectors.md` writes it, `RRGGBBAA`. -/
def hex (x : Texel) : Nat := x.r.toNat * 16777216 + x.g.toNat * 65536 + x.b.toNat * 256 + x.a.toNat

/-- The step answered a next state with the given property. -/
def nextWith (o : Host.Outcome State Fault Refusal) (P : State → Bool) : Bool :=
  match o with
  | .next t => P t
  | _ => false

/-- What an answer with a next state leaves in `Q`: the newest tile. -/
def newest (o : Host.Outcome State Fault Refusal) : List Nat :=
  match o with
  | .next t => ((t.queue.getLast?.map (fun e => e.tile)).getD []).map hex
  | _ => []

/-! ## The instructions' words -/

/-- `V-M0-1`: the stored bytes. -/
def mode0Bytes : List Byte :=
  [0x4B, 0x63, 0xA3, 0x85, 0x24, 0x44, 0x9A, 0xC7, 0xFA, 0x02, 0x41, 0x5C, 0xA1, 0xB2, 0x26, 0xD8]

/-- `V-M0-1`: the fields. -/
def mode0Instr : Instr :=
  .mode0 5 [10, 1, 11, 1, 13, 2] [4, 2, 1, 2, 2, 13] [12, 3, 6, 13, 7, 1] [0, 0, 0, 1, 0, 0]
    [0, 2, 4, 3, 2, 1, 4, 2, 1, 3, 5, 1, 1, 0, 3, 3]

/-- `V-M1-1`: the stored bytes. -/
def mode1Bytes : List Byte :=
  [0x36, 0xB6, 0xFE, 0x29, 0xA8, 0x7B, 0x99, 0xBB, 0xF9, 0xFD, 0x9B, 0x58, 0xD5, 0x8D, 0xB4, 0xFD]

/-- `V-M1-1`: the fields. -/
def mode1Instr : Instr :=
  .mode1 13 [54, 58, 31, 10] [40, 46, 23, 38] [59, 38, 31, 63] [1, 1]
    [2, 1, 1, 6, 2, 5, 2, 7, 6, 0, 1, 5, 5, 5, 7, 3]

/-- `V-M2-1`: the stored bytes. -/
def mode2Bytes : List Byte :=
  [0x2C, 0x89, 0x9F, 0xB8, 0x9F, 0x42, 0xB8, 0xB5, 0x3F, 0x0E, 0x19, 0xD4, 0x60, 0xFD, 0xB8, 0xED]

/-- `V-M2-1`: the fields. -/
def mode2Instr : Instr :=
  .mode2 37 [4, 30, 19, 24, 29, 7] [5, 4, 28, 22, 22, 31] [17, 3, 18, 1, 10, 3]
    [0, 2, 1, 1, 3, 3, 3, 0, 0, 3, 1, 2, 1, 3, 2, 3]

/-- `V-M3-1`: the stored bytes. -/
def mode3Bytes : List Byte :=
  [0x28, 0x6E, 0x4D, 0xA6, 0x41, 0xB8, 0xB2, 0xE3, 0xEF, 0x5A, 0x3B, 0xD7, 0xD4, 0xF8, 0xCF, 0x13]

/-- `V-M3-1`: the fields. -/
def mode3Instr : Instr :=
  .mode3 34 [91, 38, 38, 3] [97, 21, 59, 124] [59, 45, 59, 46] [1, 1, 0, 0]
    [1, 2, 2, 1, 0, 3, 1, 3, 3, 3, 0, 3, 3, 0, 1, 0]

/-- `V-M4-rot0-isel1`: the stored bytes. -/
def mode4Bytes : List Byte :=
  [0x90, 0xB7, 0x24, 0x18, 0xAE, 0x59, 0xCD, 0xEA, 0x5A, 0x70, 0xEB, 0xDB, 0x2C, 0xFB, 0xBA, 0xE3]

/-- `V-M4-rot0-isel1`: the fields. -/
def mode4Instr : Instr :=
  .mode4 0 1 [23, 5] [9, 16] [1, 23] [38, 21] [1, 1, 2, 1, 1, 1, 3, 1, 1, 3, 2, 0, 0, 2, 3, 2]
    [1, 5, 7, 5, 5, 1, 3, 1, 3, 7, 3, 5, 3, 7, 0, 7]

/-- `V-M5-rot1`: the stored bytes. -/
def mode5Bytes : List Byte :=
  [0x60, 0xD8, 0x59, 0x45, 0xEF, 0x69, 0x19, 0x7B, 0xE7, 0xA7, 0xA2, 0xDB, 0x00, 0x5D, 0x98, 0xE9]

/-- `V-M5-rot1`: the fields. -/
def mode5Instr : Instr :=
  .mode5 1 [88, 51] [21, 122] [30, 45] [198, 222] [1, 0, 3, 3, 3, 0, 1, 1, 1, 0, 1, 3, 1, 3, 2, 1]
    [0, 0, 0, 0, 1, 3, 1, 1, 0, 2, 1, 2, 1, 2, 2, 3]

/-- `V-M6-1`: the stored bytes. -/
def mode6Bytes : List Byte :=
  [0x40, 0xC0, 0x1F, 0xF0, 0x07, 0xFC, 0x01, 0x7F, 0x11, 0x32, 0x54, 0x76, 0x98, 0xBA, 0xDC, 0xFE]

/-- `V-M6-1`: the fields. -/
def mode6Instr : Instr :=
  .mode6 [0, 127] [0, 127] [0, 127] [0, 127] [0, 1] [0, 1, 2, 3, 4, 5, 6, 7, 8, 9, 10, 11, 12, 13, 14, 15]

/-- `V-M7-1`: the stored bytes. -/
def mode7Bytes : List Byte :=
  [0x80, 0x51, 0xAB, 0x89, 0xF0, 0x61, 0x9A, 0x32, 0x17, 0x1F, 0x10, 0xD2, 0xE3, 0x2F, 0xA1, 0x47]

/-- `V-M7-1`: the fields. -/
def mode7Instr : Instr :=
  .mode7 17 [13, 21, 9, 4] [28, 3, 6, 13] [10, 6, 23, 24] [7, 0, 1, 9] [1, 1, 1, 1]
    [0, 0, 1, 3, 3, 3, 2, 0, 1, 0, 2, 2, 3, 1, 0, 1]

/-- `V-RAW` "byte0 = 0x00, byte1 = 0x01": the stored bytes. -/
def invalidBytes : List Byte := [0, 1, 0, 0, 0, 0, 0, 0, 0, 0, 0, 0, 0, 0, 0, 0]

/-- Its ignored bits `blk[127:8]` as a number. -/
def invalidInstr : Instr := .invalid 1

/-- `V-M5-rot0` and the all-zero block of the programs P2 and P3. -/
def b5 : Block :=
  blockOfBytes [0x20, 0xD8, 0x59, 0x45, 0xEF, 0x69, 0x19, 0x7B, 0xE7, 0xA7, 0xA2, 0xDB, 0x00, 0x5D, 0x98, 0xE9]

/-! ## Small states -/

/-- The ports of one cycle, with no driver call and no other agent. -/
def ports (rst valid : Bool) (blk : Block) (ready : Bool) : Inputs :=
  { rst := rst, inValid := valid, inBlock := blk, outReady := ready, call := none, hostWrites := [] }

/-- An entry accepted in cycle `n` with latency `l`. -/
def entry (blk : Block) (n l : Nat) : Entry := { blk := blk, tile := decodeBlock blk, nAcc := n, lat := l }

/-- A state in cycle `n` with the given queue and coming inputs; `MAX_INFLIGHT` = 2, every latency 2, `ADDR_BITS` = 6. -/
def st (n : Nat) (q : List Entry) (ins : List Inputs) : State :=
  { queue := q, cycle := n, accepted := 0, maxInflight := 2, latencies := [1, 1, 1], addrBits := 6
    out := { inReady := false, outValid := false, outTexels := 0 }, inputs := ins, calls := [], driver := none, mem := [] }

def b6 : Block := blockOfBytes mode6Bytes
def b1 : Block := blockOfBytes mode1Bytes

/-- P3, cycle 1: an empty `Q`, and `B6` on offer. -/
def idle : State := st 1 [] [ports false true b6 false, ports false false 0 true]

/-- P3, cycle 3: a full `Q`, `B1` on offer, and the consumer not ready. -/
def stalled : State := st 3 [entry b6 1 2, entry b5 2 2] [ports false true b1 false, ports false true b1 true]

/-- P3, cycle 6: one entry in flight, `B1` on offer, and the consumer ready. -/
def flowing : State := st 6 [entry b5 2 2] [ports false true b1 true, ports false false 0 true]

/-- P3, cycle 8: a reset edge with two blocks in flight. -/
def resetting : State := st 8 [entry b1 6 2, entry 0 7 2] [ports true true b6 true, ports false true 0 true]

/-- A host memory with one mode-6 block in bytes 0 to 15 and an all-zero block in bytes 16 to 31. -/
def image : Memory := (mode6Bytes ++ List.replicate 16 0).zipIdx.map fun (v, i) => (i, v)

/-- A call for the 4 by 4 image of the first block, with the destination at the end of the address space. -/
def smallCall : Call := { src := 0, w := 4, h := 4, dst := 64, pitch := 16 }

/-- A call for the 8 by 4 image of both blocks. -/
def wideCall : Call := { src := 0, w := 8, h := 4, dst := 64, pitch := 36 }

/-- The host has issued a call, and the block is idle. -/
def calling (c : Call) : State :=
  { st 0 [] [ports false true 0 true, ports false true 0 true, ports false true 0 true, ports false false 0 true] with
    addrBits := 8, latencies := [0, 0, 0], calls := [c], mem := image }

/-- The call is in progress: its one block has been accepted and its tile is due. -/
def storing : State :=
  { st 5 [entry b6 3 2] [ports false false 0 true] with
    addrBits := 8, mem := image, driver := some { call := smallCall, offered := 1, stored := 0, raced := [] } }

/-! ## Well-formedness: each check refuses an ill-formed term -/

theorem test_wf_instructions :
    ([mode0Instr, mode1Instr, mode2Instr, mode3Instr, mode4Instr, mode5Instr, mode6Instr, mode7Instr, invalidInstr].all
      Instr.wf) = true := by decide +kernel

/-- `30_encoding.md` R64: a missing red, green, blue or alpha field. -/
theorem test_wf_refuses_channel_counts :
    (Instr.mode2 0 [0] [0, 0, 0, 0, 0, 0] [0, 0, 0, 0, 0, 0] (List.replicate 16 0)).wf = false ∧
      (Instr.mode2 0 [0, 0, 0, 0, 0, 0] [0] [0, 0, 0, 0, 0, 0] (List.replicate 16 0)).wf = false ∧
      (Instr.mode2 0 [0, 0, 0, 0, 0, 0] [0, 0, 0, 0, 0, 0] [0] (List.replicate 16 0)).wf = false ∧
      (Instr.mode6 [0, 0] [0, 0] [0, 0] [0] [0, 0] (List.replicate 16 0)).wf = false := by decide +kernel

/-- `30_encoding.md` R65: a missing P-bit. -/
theorem test_wf_refuses_p_bit_count :
    (Instr.mode6 [0, 0] [0, 0] [0, 0] [0, 0] [0] (List.replicate 16 0)).wf = false := by decide +kernel

/-- `30_encoding.md` R66, R67: a missing primary or secondary index. -/
theorem test_wf_refuses_index_count :
    (Instr.mode4 0 0 [0, 0] [0, 0] [0, 0] [0, 0] (List.replicate 15 0) (List.replicate 16 0)).wf = false ∧
      (Instr.mode4 0 0 [0, 0] [0, 0] [0, 0] [0, 0] (List.replicate 16 0) (List.replicate 15 0)).wf = false := by
  decide +kernel

/-- `43_index_unpack.md` R163: an index with its high bit set at the anchor of subset 0, of subset 1 (`A2[0]` = 15), of
subset 2 (`A3b[0]` = 15), and at texel 0 of a secondary set. -/
theorem test_wf_refuses_wide_anchor :
    (Instr.mode6 [0, 0] [0, 0] [0, 0] [0, 0] [0, 0] (8 :: List.replicate 15 0)).wf = false ∧
      (Instr.mode3 0 [0, 0, 0, 0] [0, 0, 0, 0] [0, 0, 0, 0] [0, 0, 0, 0] (List.replicate 15 0 ++ [2])).wf = false ∧
      (Instr.mode2 0 [0, 0, 0, 0, 0, 0] [0, 0, 0, 0, 0, 0] [0, 0, 0, 0, 0, 0] (List.replicate 15 0 ++ [2])).wf = false ∧
      (Instr.mode4 0 0 [0, 0] [0, 0] [0, 0] [0, 0] (List.replicate 16 0) (4 :: List.replicate 15 0)).wf = false := by
  decide +kernel

/-! ## Decoding and encoding: the words of `95_test_vectors.md` -/

theorem test_decode_mode0 : decode (blockOfBytes mode0Bytes) = mode0Instr := by decide +kernel

theorem test_decode_mode1 : decode (blockOfBytes mode1Bytes) = mode1Instr := by decide +kernel

theorem test_decode_mode2 : decode (blockOfBytes mode2Bytes) = mode2Instr := by decide +kernel

theorem test_decode_mode3 : decode (blockOfBytes mode3Bytes) = mode3Instr := by decide +kernel

theorem test_decode_mode4 : decode (blockOfBytes mode4Bytes) = mode4Instr := by decide +kernel

theorem test_decode_mode5 : decode (blockOfBytes mode5Bytes) = mode5Instr := by decide +kernel

theorem test_decode_mode6 : decode (blockOfBytes mode6Bytes) = mode6Instr := by decide +kernel

theorem test_decode_mode7 : decode (blockOfBytes mode7Bytes) = mode7Instr := by decide +kernel

theorem test_decode_invalid : decode (blockOfBytes invalidBytes) = invalidInstr := by decide +kernel

theorem test_encode :
    encodeBytes mode0Instr = mode0Bytes ∧ encodeBytes mode1Instr = mode1Bytes ∧ encodeBytes mode2Instr = mode2Bytes ∧
      encodeBytes mode3Instr = mode3Bytes ∧ encodeBytes mode4Instr = mode4Bytes ∧ encodeBytes mode5Instr = mode5Bytes ∧
      encodeBytes mode6Instr = mode6Bytes ∧ encodeBytes mode7Instr = mode7Bytes ∧ encodeBytes invalidInstr = invalidBytes := by
  decide +kernel

/-- `V-SEL`: the low byte and the mode it selects. -/
theorem test_mode_select :
    ([0x00, 0x01, 0xFF, 0x03, 0x02, 0xFE, 0x06, 0x04, 0xFC, 0x0C, 0x08, 0xF8, 0x10, 0xF0, 0x30, 0x20, 0xE0, 0x40, 0xC0,
      0x80].map modeSelect) = [8, 0, 0, 0, 1, 1, 1, 2, 2, 2, 3, 3, 4, 4, 4, 5, 5, 6, 6, 7] := by decide +kernel

/-- `30_encoding.md` R60: fewer than 16 bytes are no block. -/
theorem test_decode_truncated : decodeBytes (mode6Bytes.take 15) = .error .truncated := rfl

/-- `V-ANC`: the widths of the primary index fields. -/
theorem test_anchor_widths :
    primaryWidths (modeDesc 1) 34 = [2, 3, 3, 3, 3, 3, 2, 3, 3, 3, 3, 3, 3, 3, 3, 3] ∧
      primaryWidths (modeDesc 2) 37 = [1, 2, 2, 2, 2, 2, 2, 2, 1, 2, 1, 2, 2, 2, 2, 2] ∧
      primaryWidths (modeDesc 0) 5 = [2, 3, 3, 2, 3, 3, 3, 3, 3, 3, 3, 3, 3, 3, 3, 2] := by decide +kernel

/-- `V-EXP`, `V-PBIT`. -/
theorem test_expand :
    [expand 15 5, expand 16 5, expand 31 6, expand 32 6, expand 63 7, expand 64 7, expand 128 8] =
        [123, 132, 125, 130, 126, 129, 128] ∧
      [expandChannel (modeDesc 0) 4 5 (some 1), expandChannel (modeDesc 1) 6 33 (some 0),
        expandChannel (modeDesc 7) 5 16 (some 1), expandChannel (modeDesc 3) 7 100 (some 1)] = [90, 133, 134, 201] := by
  decide +kernel

/-- `V-INT`, endpoints 10 and 200. -/
theorem test_interpolate :
    (W2.map fun w => (interp 10 200 w).toNat) = [10, 72, 138, 200] ∧
      (W3.map fun w => (interp 10 200 w).toNat) = [10, 37, 63, 90, 120, 147, 173, 200] ∧
      (W4.map fun w => (interp 10 200 w).toNat) =
        [10, 22, 37, 49, 60, 72, 87, 99, 111, 123, 138, 150, 161, 173, 188, 200] := by decide +kernel

/-- `95_test_vectors.md` section 2.6: the first four bytes of the output port. -/
theorem test_output_layout : (formatTile (decodeBlock b5)).extractLsb' 0 32 = 0xC6466D98#32 := by decide +kernel

/-! ## One step of each instruction: the tile it leaves in `Q` -/

/-- `V-M0-1`. -/
theorem test_exec_mode0 : newest (exec mode0Instr idle) =
    [0xA542C6FF, 0x7B399CFF, 0x5A1EAAFF, 0x731B97FF, 0x7B399CFF, 0x903DB1FF, 0x5A1EAAFF, 0x891786FF,
     0x903DB1FF, 0x663487FF, 0x54A32CFF, 0xBD3A65FF, 0x903DB1FF, 0xA542C6FF, 0x8A6D49FF, 0x8A6D49FF] := by decide +kernel

/-- `V-M1-1`. -/
theorem test_exec_mode1 : newest (exec mode1Instr idle) =
    [0xE0AAD7FF, 0xDDA6E3FF, 0xDDA6E3FF, 0xE9B8A7FF, 0xE0AAD7FF, 0xE7B4B3FF, 0xE0AAD7FF, 0xEBBB9BFF,
     0x3692EDFF, 0x7E5E7EFF, 0x726790FF, 0x428ADBFF, 0x428ADBFF, 0x428ADBFF, 0x2A9BFFFF, 0x5B78B4FF] := by decide +kernel

/-- `V-M2-1`. -/
theorem test_exec_mode2 : newest (exec mode2Instr idle) =
    [0x21298CFF, 0xB8C536FF, 0xB3CD3FFF, 0x672666FF, 0xC6B508FF, 0x39FF18FF, 0xF72118FF, 0x9CE794FF,
     0xEFB552FF, 0xF72118FF, 0xAAD766FF, 0x75E72BFF, 0x672666FF, 0xC6B508FF, 0x75E72BFF, 0xF72118FF] := by decide +kernel

/-- `V-M3-1`. -/
theorem test_exec_mode3 : newest (exec mode3Instr idle) =
    [0x94916EFF, 0x1DCD65FF, 0x705D64FF, 0x35A16DFF, 0x4C7676FF, 0x4D2B5BFF, 0x35A16DFF, 0x4D2B5BFF,
     0x4D2B5BFF, 0x06F85CFF, 0xB7C377FF, 0x06F85CFF, 0x06F85CFF, 0xB7C377FF, 0x35A16DFF, 0xB7C377FF] := by decide +kernel

/-- `V-M4-rot0-isel1`. -/
theorem test_exec_mode4 : newest (exec mode4Instr idle) =
    [0xA8522183, 0x53748A83, 0x2984BD6C, 0x53748A83, 0x53748A83, 0xA8522183, 0x7F625455, 0xA8522183,
     0x7F625483, 0x2984BD55, 0x7F62546C, 0x53748A9A, 0x7F62549A, 0x2984BD6C, 0xBD4A0855, 0x2984BD6C] := by decide +kernel

/-- `V-M5-rot1`. -/
theorem test_exec_mode5 : newest (exec mode5Instr idle) =
    [0xC66D4698, 0xC62A3CB1, 0xC6F55A66, 0xC6F55A66, 0xCEF55A66, 0xDE2A3CB1, 0xCE6D4698, 0xCE6D4698,
     0xC66D4698, 0xD62A3CB1, 0xCE6D4698, 0xD6F55A66, 0xCE6D4698, 0xD6F55A66, 0xD6B2507F, 0xDE6D4698] := by decide +kernel

/-- `V-M6-1`. -/
theorem test_exec_mode6 : newest (exec mode6Instr idle) =
    [0x00000000, 0x10101010, 0x24242424, 0x34343434, 0x44444444, 0x54545454, 0x68686868, 0x78787878,
     0x87878787, 0x97979797, 0xABABABAB, 0xBBBBBBBB, 0xCBCBCBCB, 0xDBDBDBDB, 0xEFEFEFEF, 0xFFFFFFFF] := by decide +kernel

/-- `V-M7-1`. -/
theorem test_exec_mode7 : newest (exec mode7Instr idle) =
    [0x6DE7553C, 0x4D34BE0C, 0x4047C121, 0x246DC74D, 0xAE1C3404, 0xAE1C3404, 0x995F3F16, 0x4D34BE0C,
     0x82A44A2A, 0x6DE7553C, 0x995F3F16, 0x995F3F16, 0xAE1C3404, 0x82A44A2A, 0x6DE7553C, 0x82A44A2A] := by decide +kernel

/-- `V-M4-rot2-isel0`: rotation exchanges G and A, and the index sets keep their roles. -/
theorem test_exec_mode4_rotated :
    (newest (exec (decode (blockOfBytes (0x50 :: mode4Bytes.tail))) idle)).take 2 = [0x8C90435D, 0x8C68435D] := by decide +kernel

/-- `V-M5-rot3`: rotation exchanges B and A. -/
theorem test_exec_mode5_rotated :
    (newest (exec (decode (blockOfBytes (0xE0 :: mode5Bytes.tail))) idle)).take 4 =
      [0x986DC646, 0xB12AC63C, 0x66F5C65A, 0x66F5C65A] := by decide +kernel

/-- `V-RAW`: the fallback. -/
theorem test_exec_invalid : newest (exec invalidInstr idle) = List.replicate 16 0 := by decide +kernel

/-! ## Steps of the machine: programs P2 and P3 -/

/-- P3, cycle 1: `B6` is accepted. -/
theorem test_step_accepts : nextWith (step idle) (fun t =>
    t.out.inReady && !t.out.outValid && t.queue.map (·.blk) == [b6] && t.cycle == 2) = true := by decide +kernel

/-- P3, cycle 3: `Q` is full and the offer waits. -/
theorem test_step_stalls : nextWith (step stalled) (fun t =>
    !t.out.inReady && t.out.outValid && t.out.outTexels == formatTile (decodeBlock b6) &&
      t.queue.map (·.blk) == [b6, b5]) = true := by decide +kernel

/-- P3, cycle 5: a full `Q` takes no block even in a cycle with a delivery (`70_reset_and_hazards.md` R288). -/
theorem test_step_delivers_when_full :
    nextWith (step { stalled with inputs := [ports false true b1 true] }) (fun t =>
      !t.out.inReady && t.queue.map (·.blk) == [b5]) = true := by decide +kernel

/-- P3, cycle 6: a delivery and an acceptance at one edge (`70_reset_and_hazards.md` R293). -/
theorem test_step_delivers_and_accepts : nextWith (step flowing) (fun t =>
    t.out.inReady && t.out.outValid && t.queue.map (·.blk) == [b1]) = true := by decide +kernel

/-- P3, cycle 8: reset empties `Q` and nothing is accepted (`70_reset_and_hazards.md` R280). -/
theorem test_step_resets : nextWith (step resetting) (fun t =>
    !t.out.inReady && !t.out.outValid && t.queue == [] && t.accepted == 0) = true := by decide +kernel

/-- `47_image_driver.md` R233: a delivery scatters the tile: texel 1 of V-M6-1 is `10101010`, texel 4, in the second row, is
`44444444`. -/
theorem test_step_scatters : nextWith (step storing) (fun t =>
    t.driver == none && t.mem.read 64 == some 0 && t.mem.read 68 == some 0x10 && t.mem.read 80 == some 0x44 &&
      t.mem.read 127 == some 0xFF && t.mem.read 128 == none && t.mem.read 0 == some 0x40) = true := by decide +kernel

/-- `47_image_driver.md` R241: the driver offers its block, and the block accepts it. -/
theorem test_step_driver_offers :
    nextWith (step { storing with
      queue := [], driver := some { call := smallCall, offered := 0, stored := 0, raced := [] }
      inputs := [ports false true 0 true] }) (fun t =>
      t.queue.map (·.blk) == [b6] && t.driver.map (·.offered) == some 1) = true := by decide +kernel

/-- `47_image_driver.md` R231, R235: each broken precondition, and the refusal. -/
theorem test_step_refuses_calls :
    [smallCall, { smallCall with w := 6 }, { smallCall with h := 5 }, { smallCall with pitch := 15 },
      { smallCall with dst := 193 }, { smallCall with src := 17 }, { smallCall with dst := 15 }].map
        (fun c => c.violation 8 image) =
      [none, some .width, some .height, some .pitch, some .destination, some .source, some .overlap] ∧
    (match step (calling { smallCall with w := 6 }) with
      | .refused (.outOfContract .width) => true
      | _ => false) = true := by decide +kernel

/-- `47_image_driver.md` R238: a call for an empty image is complete at once and needs no buffer. -/
theorem test_step_empty_image :
    ([{ smallCall with w := 0, dst := 255 }, { smallCall with h := 0, src := 255 }].all fun c =>
      nextWith (step (calling c)) fun t => t.driver == none && t.calls == [] && t.mem == image) = true := by decide +kernel

/-- `60_exceptions.md` R258: the operands of a call for an empty image are checked all the same (log entry 27). -/
theorem test_empty_image_operands :
    ([{ smallCall with w := 0, h := 5 }, { smallCall with h := 0, w := 6 }, { smallCall with h := 0, pitch := 15 }].map
      fun c => c.violation 8 image) = [some .height, some .width, some .pitch] := by decide +kernel

/-! ## The host's two questions -/

theorem test_decode_table_word :
    ([1, 2, 4, 8, 16, 32, 64, 128, 0].map fun w => (decodeTableWord 8 w).map Instr.mode) =
      [some 0, some 1, some 2, some 3, some 4, some 5, some 6, some 7, some 8] := by decide +kernel

theorem test_with_fetch_word :
    ([1, 2, 4, 8, 16, 32, 64, 128, 0].all fun w => nextWith (step (State.reset.withFetchWord 8 w)) fun t =>
      t.queue.map (·.blk) == [BitVec.ofNat 128 w] && t.out.inReady) = true := by decide +kernel

/-! ## Witnesses: the hypotheses of the statements can be met -/

theorem idle_inv : idle.Inv :=
  ⟨by decide, by decide, ⟨by decide, by simp [idle, st], by simp [idle, st]⟩, ⟨rfl, by simp [idle, st]⟩,
    by simp [State.driverOk, idle, st]⟩

theorem stalled_inv : stalled.Inv :=
  ⟨by decide, by decide, ⟨by decide, by simp [stalled, st, entry, Entry.ok], by simp [stalled, st, entry]⟩,
    ⟨rfl, by simp [stalled, st]⟩, by simp [State.driverOk, stalled, st]⟩

theorem flowing_inv : flowing.Inv :=
  ⟨by decide, by decide, ⟨by decide, by simp [flowing, st, entry, Entry.ok], by simp [flowing, st]⟩,
    ⟨rfl, by simp [flowing, st]⟩, by simp [State.driverOk, flowing, st]⟩

theorem resetting_inv : resetting.Inv :=
  ⟨by decide, by decide, ⟨by decide, by simp [resetting, st, entry, Entry.ok], by simp [resetting, st, entry]⟩,
    ⟨rfl, by simp [resetting, st]⟩, by simp [State.driverOk, resetting, st]⟩

theorem image_ok : image.wf = true ∧ ∀ c ∈ image, c.1 < 2 ^ 8 := by decide +kernel

theorem calling_inv (c : Call) : (calling c).Inv :=
  ⟨by simp [calling, st], by simp [calling, st],
    ⟨by simp [calling, st], by simp [calling, st], by simp [calling, st]⟩, image_ok, by simp [State.driverOk, calling, st]⟩

theorem storing_inv : storing.Inv := by
  refine ⟨by decide, by decide, ⟨by decide, by simp [storing, st, entry, Entry.ok], by simp [storing, st]⟩, image_ok, ?_⟩
  intro d hd
  cases (Option.some.inj hd : _ = d)
  decide +kernel

/-- Any answer with the property is an answer. -/
theorem next_of_nextWith {o : Host.Outcome State Fault Refusal} {P : State → Bool} (h : nextWith o P = true) :
    ∃ t, o = .next t ∧ P t = true := by
  cases o with
  | next t => exact ⟨t, rfl, h⟩
  | fault f => cases h
  | refused r => cases h

/-- O1 at the boundary modes 0, 7 and 8. -/
theorem witness_ModeIsLowestSetBit :
    (decode 0xFF).mode = 0 ∧ (decode 0x80).mode = 7 ∧ (decode 0x100).mode = 8 := by decide +kernel

theorem witness_DecodeOfEncode :
    mode0Instr.wf = true ∧ mode1Instr.wf = true ∧ mode2Instr.wf = true ∧ mode3Instr.wf = true ∧ mode4Instr.wf = true ∧
      mode5Instr.wf = true ∧ mode6Instr.wf = true ∧ mode7Instr.wf = true ∧ invalidInstr.wf = true := by decide +kernel

theorem witness_CursorEndsAt128 : 7 < 8 ∧ (unpack 0 1).2 = 128 ∧ (unpack 7 b1.toNat).2 = 128 := by decide +kernel

/-- The blocks with only their mode bit set meet both hypotheses of each map: the mode bits, and partition 0. -/
theorem witness_FieldMaps :
    ((1#128).extractLsb' 0 1 = 1 ∧ (1#128).extractLsb' 1 4 = 0) ∧
      ((2#128).extractLsb' 0 2 = 2 ∧ (2#128).extractLsb' 2 6 = 0) ∧
      ((4#128).extractLsb' 0 3 = 4 ∧ (4#128).extractLsb' 3 6 = 0) ∧
      ((8#128).extractLsb' 0 4 = 8 ∧ (8#128).extractLsb' 4 6 = 0) ∧
      (16#128).extractLsb' 0 5 = 16 ∧ (32#128).extractLsb' 0 6 = 32 ∧ (64#128).extractLsb' 0 7 = 64 ∧
      ((128#128).extractLsb' 0 8 = 128 ∧ (128#128).extractLsb' 8 6 = 0) := by decide +kernel

/-- The secondary-index clause applies in modes 4 and 5, here at texels 0 and 15 (`V-IDXPOS`). -/
theorem witness_IndexFieldPositions :
    0 < (modeDesc 4).alphaIndexBits ∧ 0 < (modeDesc 5).alphaIndexBits ∧
      Claims.fieldStart 65 4 [0] 1 = 68 ∧ Claims.fieldStart 97 2 [0] 15 = 126 ∧ Claims.fieldStart 81 3 [0] 15 = 125 := by
  decide +kernel

theorem witness_PartitionTablesConsistent : 63 < 64 ∧ 15 < 16 ∧ subsetOf 2 63 0 = 0 ∧ subsetOf 3 63 0 = 0 := by
  decide +kernel

theorem witness_AnchorsAreDistinct : anchors 1 63 = [0] ∧ anchors 2 34 = [0, 6] ∧ anchors 3 37 = [0, 10, 8] := by
  decide +kernel

theorem witness_ExpansionKeepsStoredBits :
    expand 31 5 = 255 ∧ expand 255 8 = 255 ∧ expand 127 7 = 255 ∧
      (expandChannel (modeDesc 6) 7 127 (some 1)).toNat = 255 := by decide +kernel

/-- `V-EXP`, at the largest values and the one below. -/
theorem witness_ExpansionIsStrictlyIncreasing :
    expand 30 5 = 247 ∧ expand 31 5 = 255 ∧ expand 62 6 = 251 ∧ expand 126 7 = 253 ∧ expand 254 8 = 254 := by
  decide +kernel

theorem witness_WeightTablesRise : weight ⟨3, 2⟩ = 64 ∧ weight ⟨14, 4⟩ = 60 ∧ weight ⟨15, 4⟩ = 64 := by decide +kernel

theorem witness_InterpolationProperties : interp 0 255 64 = 255 ∧ interp 0 255 0 = 0 ∧ interp 255 255 64 = 255 := by
  decide +kernel

theorem witness_AlphaIs255WithoutAlphaFields :
    (decode 1).mode ≤ 3 ∧ (decode 8).mode = 3 ∧ (⟨0, 0, 0, 255⟩ : Texel) ∈ decodeBlock 1 := by decide +kernel

/-- `V-EQ-1`: both endpoints are (21, 41, 61, 81). -/
theorem witness_EqualEndpointsGiveTheirColor :
    let i : Instr := .mode6 [10, 10] [20, 20] [30, 30] [40, 40] [1, 1] [3, 10, 1, 8, 15, 6, 13, 4, 11, 2, 9, 0, 7, 14, 5, 12]
    i.mode < 8 ∧ endpoint (modeDesc 6) i.fields 0 = ⟨21, 41, 61, 81⟩ ∧ endpoint (modeDesc 6) i.fields 1 = ⟨21, 41, 61, 81⟩ := by
  decide +kernel

/-- Both modes, and each rotation code: V-M4-rot0-isel1, V-M4-rot2, V-M5-rot0, V-M5-rot1 and V-M5-rot3. -/
theorem witness_RotationOnlySwapsChannels :
    ([(0x90, 4), (0xD0, 4), (0x20, 5), (0x60, 5), (0xE0, 5)].map fun (b, m) =>
      let blk := blockOfBytes (b :: (if m = 4 then mode4Bytes else mode5Bytes).tail)
      ((decode blk).mode, blk.extractLsb' (m + 1) 2)) = [(4, 0), (4, 2), (5, 0), (5, 1), (5, 3)] := by decide +kernel

/-- Two mode-1 blocks with different endpoints in subset 1; texel 0 is in subset 0, texel 15 in subset 1. -/
theorem witness_TexelDependsOnOwnSubset :
    let f := mode1Instr.fields
    let f' : Fields := { f with r := [54, 58, 0, 0], pbits := [1, 0] }
    f ≠ f' ∧ subsetOf (modeDesc 1).partitionCount f.part 0 = 0 ∧
      ∀ e, e / 2 = 0 → f.r[e]? = f'.r[e]? ∧ f.g[e]? = f'.g[e]? ∧ f.b[e]? = f'.b[e]? ∧ f.a[e]? = f'.a[e]? ∧
        pBitOf (modeDesc 1) f e = pBitOf (modeDesc 1) f' e := by
  refine ⟨by decide, by decide +kernel, fun e he => ?_⟩
  obtain rfl | rfl : e = 0 ∨ e = 1 := by omega
  · decide
  · decide

theorem witness_ReservedModeGivesFallback :
    (0#128).extractLsb' 0 8 = 0 ∧ (blockOfBytes invalidBytes).extractLsb' 0 8 = 0 := by decide +kernel

theorem witness_OutputPortLayout :
    (decodeBlock b6).length = 16 ∧ (decodeBlock b6)[0]? = some ⟨0, 0, 0, 0⟩ ∧
      (decodeBlock b6)[15]? = some ⟨255, 255, 255, 255⟩ := by decide +kernel

/-- For the nine completion statements: `in_ready` = 1, with an empty `Q` and with one entry fewer than `MAX_INFLIGHT`. -/
theorem witness_completion : idle.inReady = true ∧ flowing.inReady = true := by decide +kernel

theorem witness_NothingIsAcceptedWhenNotReady : stalled.inReady = false ∧ resetting.inReady = false := by decide +kernel

theorem witness_StepRunsDecodedBlock :
    flowing.callStarts = false ∧ flowing.rst = false ∧
      (match flowing.offer with
        | .ok (some b) => b == b1
        | _ => false) = true ∧
      nextWith (exec (decode b1) flowing) (fun _ => true) = true := by decide +kernel

/-- A full queue, a delivery with an acceptance, and a reset. -/
theorem witness_CycleFollowsStepFunction :
    (stalled.callStarts = false ∧ stalled.rst = false ∧ nextWith (step stalled) (fun _ => true) = true) ∧
      (flowing.callStarts = false ∧ flowing.rst = false ∧ nextWith (step flowing) (fun t => t.out.outValid) = true) ∧
      resetting.callStarts = false ∧ resetting.rst = true ∧ nextWith (step resetting) (fun _ => true) = true := by
  decide +kernel

theorem witness_ParametersNeverChange : nextWith (step flowing) (fun t => t.maxInflight == 2) = true := by decide +kernel

theorem witness_InReadyExactlyWhenRoom :
    flowing.Inv ∧ flowing.rst = false ∧ flowing.inputs = ports false true b1 true :: [ports false false 0 true] ∧
      nextWith (step flowing) (fun t => t.queue.length == 1) = true :=
  ⟨flowing_inv, by decide +kernel, rfl, by decide +kernel⟩

theorem witness_OutputHoldsUntilDelivered :
    stalled.Inv ∧ stalled.rst = false ∧ stalled.outValid = true ∧ stalled.delivers = false ∧
      nextWith (step stalled) (fun t => !t.rst) = true :=
  ⟨stalled_inv, by decide +kernel, by decide +kernel, by decide +kernel, by decide +kernel⟩

theorem witness_LatencyIsWaited :
    flowing.Inv ∧ flowing.acceptedBlock = some b1 ∧ nextWith (step flowing) (fun _ => true) = true :=
  ⟨flowing_inv, by decide +kernel, by decide +kernel⟩

theorem witness_ResetEmptiesQueue :
    resetting.Inv ∧ resetting.callStarts = false ∧ resetting.rst = true ∧
      nextWith (step resetting) (fun t => !t.rst && t.inReady && !t.outValid) = true :=
  ⟨resetting_inv, by decide +kernel, by decide +kernel, by decide +kernel⟩

theorem witness_ResetStateValues : (ports false true b6 true).rst = false := rfl

/-- From good states: a cycle, a reset, the start of a call and a scatter. -/
theorem witness_StepKeepsInvariant :
    (flowing.Inv ∧ nextWith (step flowing) (fun _ => true) = true) ∧
      (resetting.Inv ∧ nextWith (step resetting) (fun _ => true) = true) ∧
      ((calling smallCall).Inv ∧ nextWith (step (calling smallCall)) (fun t => t.driver.isSome) = true) ∧
      storing.Inv ∧ nextWith (step storing) (fun t => t.driver.isNone) = true :=
  ⟨⟨flowing_inv, by decide +kernel⟩, ⟨resetting_inv, by decide +kernel⟩, ⟨calling_inv _, by decide +kernel⟩, storing_inv,
    by decide +kernel⟩

/-- Both outcomes occur: a step, and the refusal of a call whose width is not a multiple of 4. -/
theorem witness_NoFaultFromGoodStates :
    idle.Inv ∧ nextWith (step idle) (fun _ => true) = true ∧ (calling { smallCall with w := 6 }).Inv ∧
      Call.violation { smallCall with w := 6 } 8 image = some .width :=
  ⟨idle_inv, by decide +kernel, calling_inv _, by decide +kernel⟩

theorem witness_CycleConservesTiles :
    flowing.Inv ∧ flowing.rst = false ∧ flowing.deliveredTile.isSome = true ∧ flowing.acceptedBlock.isSome = true ∧
      nextWith (step flowing) (fun _ => true) = true :=
  ⟨flowing_inv, by decide +kernel, by decide +kernel, by decide +kernel, by decide +kernel⟩

theorem witness_DeliveryInOrderExactlyOnce :
    stalled.Inv ∧ always State.noReset 2 stalled = true ∧
      nextWith (Host.Core.run core 2 stalled) (fun t => t.queue.map (·.blk) == [b5]) = true :=
  ⟨stalled_inv, by decide +kernel, by decide +kernel⟩

/-- One block in flight that is due: it is delivered within `0 + 1` cycles. -/
theorem witness_AcceptedBlocksAreDelivered :
    flowing.driver = none ∧ flowing.calls = [] ∧ (∀ e ∈ flowing.queue, e.nAcc + e.lat ≤ flowing.cycle + 0) ∧
      always (fun u => u.eager && u.envInputs.call.isNone) (0 + flowing.queue.length) flowing = true := by decide +kernel

/-- The same block accepted in two states with different queues, cycles and latencies. -/
theorem witness_TileDependsOnBlockAlone :
    let other := { idle with inputs := [ports false true b1 false], latencies := [7] }
    flowing.Inv ∧ other.Inv ∧ flowing.acceptedBlock = some b1 ∧ other.acceptedBlock = some b1 ∧
      nextWith (step flowing) (fun _ => true) = true ∧ nextWith (step other) (fun _ => true) = true :=
  ⟨flowing_inv, idle_inv, by decide +kernel, by decide +kernel, by decide +kernel, by decide +kernel⟩

theorem witness_AcceptanceCapturesInBlock :
    flowing.inputs = ports false true b1 true :: [ports false false 0 true] ∧ flowing.callStarts = false ∧
      flowing.driver = none ∧ flowing.inReady = true ∧ nextWith (step flowing) (fun _ => true) = true :=
  ⟨rfl, by decide +kernel, rfl, by decide +kernel, by decide +kernel⟩

/-- P3, cycle 10: the port `in_valid` is 0 while `in_ready` is 1 and one block is in flight. -/
theorem witness_AcceptanceCapturesInBlock_no_offer :
    let quiet := st 10 [entry 0 9 2] [ports false false b6 true]
    quiet.driver = none ∧ quiet.envInputs.inValid = false ∧ quiet.inReady = true ∧
      nextWith (step quiet) (fun t => t.queue.map (·.blk) == [0]) = true := by decide +kernel

/-- `storing`, in a cycle in which another agent writes byte 200. -/
def sharing : State :=
  { storing with inputs := [{ ports false false 0 true with hostWrites := [(200, 7)] }] }

/-- A delivery to the driver while another agent writes byte 200; byte 128 is just past the last destination address. -/
theorem witness_MemoryChangesOnlyByScatter :
    sharing.delivers = true ∧ sharing.callStarts = false ∧ 128 ∉ sharing.envInputs.hostWrites.map (·.1) ∧
      nextWith (step sharing) (fun t => t.mem.read 200 == some 7 && t.mem.read 128 == none) = true ∧
      ∀ x < 16, ∀ c < 4, 128 ≠ smallCall.dstAddr 0 x c ∧ smallCall.dstAddr 0 x c ≤ 127 := by decide +kernel

/-- A call in contract, one that is not, and one in contract because its image is empty. -/
theorem witness_ContractDecidesTheCall :
    (calling smallCall).callStarts = true ∧ (calling smallCall).calls = [smallCall] ∧ smallCall.violation 8 image = none ∧
      (calling { smallCall with pitch := 15 }).callStarts = true ∧
      Call.violation { smallCall with pitch := 15 } 8 image = some .pitch ∧
      Call.violation { smallCall with w := 0, dst := 255 } 8 image = none := by decide +kernel

/-- The last channel of the last texel of the last block. -/
theorem witness_DestinationAddressesDiffer :
    wideCall.w % 4 = 0 ∧ 4 * wideCall.w ≤ wideCall.pitch ∧ 1 < wideCall.blocks ∧
      wideCall.dstAddr 1 15 3 = 64 + 3 * 36 + 31 := by decide +kernel

theorem witness_DecodeImageWritesTheImage :
    wideCall.violation 8 image = none ∧ 7 < wideCall.w ∧ 3 < wideCall.h := by decide +kernel

theorem witness_ShardingGivesTheSameImage :
    image.wf = true ∧ wideCall.violation 8 image = none ∧ [1, 0].Perm (List.range wideCall.blocks) :=
  ⟨by decide +kernel, by decide +kernel, by decide +kernel⟩

/-- A call for one block: begun, offered, stored. -/
theorem witness_DriverThroughBlockIsDecodeImage :
    (calling smallCall).Inv ∧ (calling smallCall).driver = none ∧ (calling smallCall).queue = [] ∧
      (calling smallCall).calls = [smallCall] ∧ smallCall.violation 8 image = none ∧
      always State.quiet 3 (calling smallCall) = true ∧
      nextWith (Host.Core.run core 3 (calling smallCall)) (fun t => t.driver.isNone) = true :=
  ⟨calling_inv _, rfl, rfl, rfl, by decide +kernel, by decide +kernel, by decide +kernel⟩

end Sys2Proof.Tests
end

