-- ==== Sys2Proof/Proofs/Scope.lean ====
section
/-! The open parameters of `00_scope.md` R7 along a step, and the invariant in the state after reset. -/

namespace Sys2Proof.Machine

section Accepting

variable (blk : Block) (tile : Tile) (s : State)

@[simp] theorem accepting_maxInflight : (accepting blk tile s).maxInflight = s.maxInflight := rfl
@[simp] theorem accepting_latencies : (accepting blk tile s).latencies = s.latencies := rfl
@[simp] theorem accepting_addrBits : (accepting blk tile s).addrBits = s.addrBits := rfl

end Accepting

/-- Settles O40: the start of a call writes only the host's side, a reset edge and a clock edge keep each parameter, and so
does the acceptance that comes before a clock edge when a block is on offer. -/
theorem parametersNeverChange : Obligations.ParametersNeverChange := by
  intro s t h
  obtain ⟨hs, hstart⟩ | ⟨-, -, rfl⟩ | ⟨-, -, -, rfl⟩ | ⟨b, -, -, -, rfl⟩ := step_cases h
  case inl =>
    obtain ⟨c, rest, -, -, -, -, rfl⟩ := startCall_cases hs hstart
    exact ⟨rfl, rfl, rfl⟩
  case inr.inl => simp
  case inr.inr.inl => simp
  case inr.inr.inr => cases s.inReady <;> simp

/-- `MAX_INFLIGHT` of the state after reset is an integer of at least 1 (`00_scope.md` R7). -/
theorem reset_maxInflight_pos : 1 ≤ State.reset.maxInflight := Nat.le_add_left 1 Config.maxInflightLess1

/-- `ADDR_BITS` of the state after reset is an integer of at least 1 (`00_scope.md` R7). -/
theorem reset_addrBits_pos : 1 ≤ State.reset.addrBits := Nat.le_add_left 1 Config.addrBitsLess1

/-- An empty `Q` is good, whatever the capacity and the cycle. -/
theorem queueOk_of_nil {s : State} (h : s.queue = []) : s.queueOk := by simp [State.queueOk, h]

/-- A host memory that lists no byte is good. -/
theorem memOk_of_nil {s : State} (h : s.mem = []) : s.memOk := by simp [State.memOk, h, Memory.wf]

/-- With no call in progress nothing is asked of the driver. -/
theorem driverOk_of_idle {s : State} (h : s.driver = none) : s.driverOk := by simp [State.driverOk, h]

/-- Settles O47: both numeric parameters are at least 1, and `Q`, host memory and the driver are empty after reset. -/
theorem resetSatisfiesInvariant : Obligations.ResetSatisfiesInvariant :=
  ⟨reset_maxInflight_pos, reset_addrBits_pos, queueOk_of_nil rfl, memOk_of_nil rfl, driverOk_of_idle rfl⟩

end Sys2Proof.Machine
end

section
/-! The bit cursor and the round trip of the decoder: `unpack` reads each of the 128 bits of a block exactly once
(`10_state.md` R25, `30_encoding.md` R77), so that `encode` gives a decoded block back. -/

namespace Sys2Proof

open Sys2Proof.Machine

/-- Where the cursor of `unpack` ends: behind the mode bits and the widths of every section of the block. -/
theorem unpack_cursor (m blk : Nat) :
    (unpack m blk).2 =
      m + 1 + (modeDesc m).partitionBits + (modeDesc m).rotationBits + (modeDesc m).indexSelectionBits +
        (colorWidths (modeDesc m)).sum + (colorWidths (modeDesc m)).sum + (colorWidths (modeDesc m)).sum +
        (alphaWidths (modeDesc m)).sum + (pBitWidths (modeDesc m)).sum +
        (primaryWidths (modeDesc m) (unpack m blk).1.part).sum + (secondaryWidths (modeDesc m)).sum := by
  rw [unpack_eq]

/-- The partition field that `unpack` reads is below the range of its width. -/
theorem unpack_part_lt (m blk : Nat) : (unpack m blk).1.part < 2 ^ (modeDesc m).partitionBits := by
  rw [unpack_eq]
  exact Nat.mod_lt _ (Nat.two_pow_pos _)

/-- In each of the modes 0 to 7 the cursor ends at 128 (`30_encoding.md` R77). -/
theorem unpack_cursor_eq (m blk : Nat) (hm : m < 8) : (unpack m blk).2 = 128 := by
  have hpart := unpack_part_lt m blk
  rw [unpack_cursor]
  match m, hm with
  | 0, _ => rw [primaryWidths_sum.1 _ hpart]; rfl
  | 1, _ => rw [(primaryWidths_sum.2 _ hpart).1]; rfl
  | 2, _ => rw [(primaryWidths_sum.2 _ hpart).2.1]; rfl
  | 3, _ => rw [(primaryWidths_sum.2 _ hpart).2.2.1]; rfl
  | 4, _ => rw [(indexWidths_sum _).1]; rfl
  | 5, _ => rw [(indexWidths_sum _).2.1]; rfl
  | 6, _ => rw [(indexWidths_sum _).2.2.1]; rfl
  | 7, _ => rw [(primaryWidths_sum.2 _ hpart).2.2.2]; rfl

/-- Settles O5: the widths of the sections of each mode sum to 128, whatever the partition that the block names. -/
theorem cursorEndsAt128 : Obligations.CursorEndsAt128 := fun m hm blk => unpack_cursor_eq m blk.toNat hm

/-- The field values `f` have the widths of descriptor `D`, and a field that `D` does not have is 0 or `[]`
(`30_encoding.md` R63–R67). -/
structure FitsDesc (D : ModeDesc) (f : Fields) : Prop where
  part : f.part < 2 ^ D.partitionBits
  rot : f.rot < 2 ^ D.rotationBits
  isel : f.isel < 2 ^ D.indexSelectionBits
  r : ∀ v ∈ f.r, v < 2 ^ D.colorBits
  g : ∀ v ∈ f.g, v < 2 ^ D.colorBits
  b : ∀ v ∈ f.b, v < 2 ^ D.colorBits
  a : ∀ v ∈ f.a, v < 2 ^ D.alphaBits
  a_nil : D.alphaBits = 0 → f.a = []
  pbits : ∀ v ∈ f.pbits, v < 2 ^ 1
  pbits_nil : D.pBitCount = 0 → f.pbits = []
  idx1 : ∀ v ∈ f.idx1, v < 2 ^ D.colorIndexBits
  idx2 : ∀ v ∈ f.idx2, v < 2 ^ D.alphaIndexBits
  idx2_nil : D.alphaIndexBits = 0 → f.idx2 = []

/-- An alpha field is below the range of its width (`30_encoding.md` R64). -/
theorem alpha_lt (blk c : Nat) (D : ModeDesc) : ∀ v ∈ (readFields blk c (alphaWidths D)).1, v < 2 ^ D.alphaBits := by
  unfold alphaWidths
  split
  · simp
  · exact readFields_replicate_lt _ _ _ _

/-- What `unpack` reads has the widths of the mode's descriptor. -/
theorem unpack_fits (m blk : Nat) : FitsDesc (modeDesc m) (unpack m blk).1 := by
  rw [unpack_eq]
  exact {
    part := Nat.mod_lt _ (Nat.two_pow_pos _)
    rot := Nat.mod_lt _ (Nat.two_pow_pos _)
    isel := Nat.mod_lt _ (Nat.two_pow_pos _)
    r := readFields_replicate_lt _ _ _ _
    g := readFields_replicate_lt _ _ _ _
    b := readFields_replicate_lt _ _ _ _
    a := alpha_lt _ _ _
    a_nil := fun h => by simp [alphaWidths, h]
    pbits := readFields_replicate_lt _ _ _ _
    pbits_nil := fun h => by simp [pBitWidths, h]
    idx1 := primary_lt _ _ _ _
    idx2 := secondary_lt _ _ _
    idx2_nil := fun h => by simp [secondaryWidths, h] }

/-- The instruction made of fields that have their mode's widths has exactly these fields: in each mode a field in range
survives the trip through its bit vector, and a field that the layout drops was 0 or `[]`. -/
theorem fields_ofFields {m : Nat} {f : Fields} (hm : m < 8) (hf : FitsDesc (modeDesc m) f) :
    (Instr.ofFields m f).fields = f := by
  obtain ⟨hpart, hrot, hisel, hr, hg, hb, ha, haNil, hp, hpNil, h1, h2, h2Nil⟩ := hf
  cases f
  match m, hm with
  | 0, _ | 1, _ | 2, _ | 3, _ | 4, _ | 5, _ | 6, _ | 7, _ =>
    simp_all [Instr.ofFields, Instr.fields, modeDesc, ModeDesc.pBitCount, ModeDesc.endpointCount, toWidth_toNat,
      Nat.mod_eq_of_lt]

/-- The packed fields `l` are the bits of `blk` from position `c` up to position `e`. -/
def IsSlice (blk c : Nat) (l : List (Nat × Nat)) (e : Nat) : Prop := blk % 2 ^ c + 2 ^ c * pack l = blk % 2 ^ e

/-- Fields that are the bits below position `e` pack to the block cut off there. -/
theorem pack_of_isSlice {blk e : Nat} {l : List (Nat × Nat)} (h : IsSlice blk 0 l e) : pack l = blk % 2 ^ e := by
  simpa [IsSlice, Nat.mod_one] using h

theorem isSlice_nil (blk c : Nat) : IsSlice blk c [] c := by simp [IsSlice]

/-- One field in front of a slice. -/
theorem isSlice_cons {blk c e v w : Nat} {l : List (Nat × Nat)} (hv : v % 2 ^ w = (blk >>> c) % 2 ^ w)
    (h : IsSlice blk (c + w) l e) : IsSlice blk c ((v, w) :: l) e := by
  unfold IsSlice at h ⊢
  rw [← h, pack_cons, hv, Nat.shiftRight_eq_div_pow, Nat.pow_add, Nat.mod_mul]
  ring

/-- A section that was read from the block, in front of a slice. -/
theorem isSlice_readFields {blk c e : Nat} {ws : List Nat} {l : List (Nat × Nat)} (h : IsSlice blk (c + ws.sum) l e) :
    IsSlice blk c ((readFields blk c ws).1.zip ws ++ l) e := by
  unfold IsSlice at h ⊢
  rw [← h, pack_readFields, Nat.shiftRight_eq_div_pow, Nat.pow_add, Nat.mod_mul]
  ring

/-- The mode bits of a block of mode `m` (`30_encoding.md` R61): `m` zeros and a 1. -/
theorem mod_of_modeSelect {x m : Nat} (hm : m < 8) (h : modeSelect x = m) : x % 2 ^ (m + 1) = 2 ^ m := by
  obtain ⟨hbit, hlow⟩ := (modeSelect_lt hm).1 h
  apply Nat.eq_of_testBit_eq
  intro j
  rw [Nat.testBit_mod_two_pow, Nat.testBit_two_pow]
  rcases Nat.lt_trichotomy j m with hj | rfl | hj
  · simp [hlow j hj, hj.ne']
  · simp [hbit]
  · simp [Nat.not_lt.2 (Nat.succ_le_of_lt hj), hj.ne]

/-- Packing everything that was unpacked gives the bits below the cursor back (`30_encoding.md` R77). -/
theorem pack_unpack {m blk : Nat} (hm : m < 8) (h : modeSelect blk = m) :
    pack (fieldLayout m (unpack m blk).1) = blk % 2 ^ (unpack m blk).2 := by
  apply pack_of_isSlice
  rw [unpack_eq, fieldLayout, ← List.append_nil (_ ++ _)]
  simp only [List.append_assoc, List.cons_append, List.nil_append]
  have hmode : 2 ^ m % 2 ^ (m + 1) = (blk >>> 0) % 2 ^ (m + 1) := by
    rw [Nat.shiftRight_zero, mod_of_modeSelect hm h]
    exact Nat.mod_eq_of_lt (Nat.pow_lt_pow_right Nat.one_lt_two m.lt_succ_self)
  refine isSlice_cons hmode ?_
  rw [Nat.zero_add]
  refine isSlice_cons (Nat.mod_mod _ _) <| isSlice_cons (Nat.mod_mod _ _) <| isSlice_cons (Nat.mod_mod _ _) ?_
  refine isSlice_readFields <| isSlice_readFields <| isSlice_readFields <| isSlice_readFields <| isSlice_readFields ?_
  exact isSlice_readFields <| isSlice_readFields <| isSlice_nil _ _

/-- The reserved mode is selected only where the low byte is 0 (`40_mode_select_bitstream.md` R100). -/
theorem testBit_of_modeSelect_eq_eight {x : Nat} (h : modeSelect x = 8) {j : Nat} (hj : j < 8) : x.testBit j = false := by
  unfold modeSelect at h
  cases hf : (List.range 8).find? fun k => x.testBit k with
  | none => simpa using List.find?_eq_none.1 hf j (List.mem_range.2 hj)
  | some k =>
    have := List.mem_of_find?_eq_some hf
    simp [hf] at h this
    omega

/-- No bit of a block is lost by the decoder (`30_encoding.md` R77, R81): encoding what was decoded gives the block
back. -/
theorem encode_decode (blk : Block) : encode (decode blk) = blk := by
  unfold decode
  simp only
  split
  case isTrue h8 =>
    show blk.extractLsb' 8 120 ++ 0#8 = blk
    ext j hj
    rw [BitVec.getElem_append]
    split
    · simpa [BitVec.testBit_toNat, BitVec.getLsbD_eq_getElem hj] using (testBit_of_modeSelect_eq_eight h8 ‹j < 8›).symm
    · simp [Nat.add_sub_cancel' (Nat.le_of_not_lt ‹¬ j < 8›), BitVec.getLsbD_eq_getElem hj]
  case isFalse h8 =>
    have hm : modeSelect blk.toNat < 8 := by have := modeSelect_le blk.toNat; omega
    rw [encode_eq _ (by rw [ofFields_mode _ hm]; exact h8), ofFields_mode _ hm, fields_ofFields hm (unpack_fits _ _),
      pack_unpack hm rfl, unpack_cursor_eq _ _ hm, Nat.mod_eq_of_lt blk.isLt, BitVec.ofNat_toNat, BitVec.setWidth_eq]

end Sys2Proof
end

section
/-! The invariant of the machine along a step. A clock edge is an acceptance, a delivery and a tick; each keeps the
invariant with `Q` judged in the cycle that begins, so the parts below speak of one component of the state at a time. -/

namespace Sys2Proof.Machine

/-! ### The in-flight queue -/

/-- The entries `q` fit the capacity `cap`, stand in order of acceptance and are each good in cycle `n`
(`10_state.md` R28). -/
def GoodQueue (cap n : Nat) (q : List Entry) : Prop :=
  q.length ≤ cap ∧ (∀ e ∈ q, e.ok n) ∧ q.Pairwise fun e e' => e.nAcc < e'.nAcc

theorem goodQueue_nil (cap n : Nat) : GoodQueue cap n [] := ⟨Nat.zero_le _, by simp, .nil⟩

theorem goodQueue_tail {cap n : Nat} {q : List Entry} (h : GoodQueue cap n q) : GoodQueue cap n q.tail := by
  obtain ⟨hlen, hok, hord⟩ := h
  exact ⟨by simp; omega, fun e he => hok e (List.mem_of_mem_tail he), hord.tail⟩

/-- What is good in a cycle is good in the next one. -/
theorem goodQueue_succ {cap n : Nat} {q : List Entry} (h : GoodQueue cap n q) : GoodQueue cap (n + 1) q := by
  obtain ⟨hlen, hok, hord⟩ := h
  refine ⟨hlen, fun e he => ?_, hord⟩
  obtain ⟨htile, hlat, hacc⟩ := hok e he
  exact ⟨htile, hlat, Nat.lt_succ_of_lt hacc⟩

/-- An entry accepted in cycle `n` that holds the decode of its block goes to the end of a queue with room. -/
theorem goodQueue_concat {cap n : Nat} {q : List Entry} {e : Entry} (h : GoodQueue cap n q) (hroom : q.length < cap)
    (htile : e.tile = decodeBlock e.blk) (hlat : 1 ≤ e.lat) (hacc : e.nAcc = n) : GoodQueue cap (n + 1) (q ++ [e]) := by
  have hbefore : ∀ x ∈ q, x.nAcc < e.nAcc := fun x hx => hacc ▸ (h.2.1 x hx).2.2
  obtain ⟨-, hok, hord⟩ := goodQueue_succ h
  refine ⟨by simpa using hroom, ?_, ?_⟩
  · simpa [or_imp, forall_and] using ⟨hok, htile, hlat, by omega⟩
  · simpa [List.pairwise_append] using ⟨hord, hbefore⟩

/-! ### Host memory -/

/-- The memory is in canonical form and lists only bytes of an address space of `n` bits (`47_image_driver.md` R242). -/
def GoodMem (n : Nat) (m : Memory) : Prop := m.wf = true ∧ ∀ c ∈ m, c.1 < 2 ^ n

/-- Writes inside the address space keep a memory good. -/
theorem goodMem_writeAll {n : Nat} {m : Memory} {l : List Host.Cell} (h : GoodMem n m)
    (hl : ∀ a ∈ l.map (·.1), a < 2 ^ n) : GoodMem n (m.writeAll l) := by
  obtain ⟨hwf, hin⟩ := h
  refine ⟨writeAll_wf hwf l, fun c hc => ?_⟩
  rcases mem_writeAll hc with hc | hc
  · exact hin c hc
  · exact hl _ hc

/-- Other agents' writes keep a memory good: those outside the address space are dropped. -/
theorem goodMem_hostWrite {n : Nat} {m : Memory} (h : GoodMem n m) (l : List Host.Cell) :
    GoodMem n (Memory.hostWrite n m l) := by
  refine goodMem_writeAll h fun a ha => ?_
  obtain ⟨c, hc, rfl⟩ := List.mem_map.1 ha
  exact of_decide_eq_true (List.mem_filter.1 hc).2

/-- The scatter of a tile of an in-contract call keeps a memory good (`47_image_driver.md` R231, R233). -/
theorem goodMem_scatter {n : Nat} {c : Call} {m : Memory} {k : Nat} (h : GoodMem n m) (hc : c.violation n m = none)
    (hk : k < c.blocks) (T : Tile) : GoodMem n (c.scatter m k T) := by
  refine goodMem_writeAll h fun a ha => ?_
  obtain ⟨t, ch, ht, hch, rfl⟩ := tileCells_addr c k T ha
  exact (dst_bound hc hk ht hch).1

/-! ### The driver call in progress -/

/-- The call of `d` is in contract, its cursors are in order, and at least `inflight` blocks are offered and not yet
stored (`47_image_driver.md` R231, R240, R241). -/
def GoodDriver (n : Nat) (m : Memory) (inflight : Nat) (d : Driver) : Prop :=
  d.call.violation n m = none ∧ d.stored < d.call.blocks ∧ d.offered ≤ d.call.blocks ∧ d.stored + inflight ≤ d.offered

/-- A driver stays good while bytes only gain values and entries only leave `Q`; what it notes of other agents' writes does
not matter. -/
theorem goodDriver_mono {n : Nat} {m m' : Memory} {i j : Nat} {d : Driver} (h : GoodDriver n m i d) (hij : j ≤ i)
    (hm : ∀ a, (m.read a).isSome = true → (m'.read a).isSome = true) (raced : List Nat) :
    GoodDriver n m' j { d with raced := raced } := by
  obtain ⟨hcall, hstored, hoffered, hcursors⟩ := h
  exact ⟨violation_mono hcall hm, hstored, hoffered, show d.stored + j ≤ d.offered by omega⟩

/-- An accepted block of the driver is one more offered and one more in flight. -/
theorem goodDriver_offer {n : Nat} {m : Memory} {i : Nat} {d : Driver} (h : GoodDriver n m i d)
    (hd : d.offered < d.call.blocks) : GoodDriver n m (i + 1) { d with offered := d.offered + 1 } := by
  obtain ⟨hcall, hstored, -, hcursors⟩ := h
  exact ⟨hcall, hstored, hd, Nat.succ_le_succ hcursors⟩

/-- A tile that is not the last one leaves `Q` and is stored. -/
theorem goodDriver_store {n : Nat} {m : Memory} {i : Nat} {d : Driver} (h : GoodDriver n m (i + 1) d)
    (hd : d.stored + 1 < d.call.blocks) (T : Tile) :
    GoodDriver n (d.call.scatter m d.stored T) i { d with stored := d.stored + 1 } := by
  obtain ⟨hcall, -, hoffered, hcursors⟩ := h
  exact ⟨violation_mono hcall (isSome_writeAll m _), hd, hoffered, show d.stored + 1 + i ≤ d.offered by omega⟩

/-- A call in contract that has a block begins with a good driver. -/
theorem goodDriver_start {n : Nat} {m : Memory} {c : Call} (h : c.violation n m = none) (hc : c.blocks ≠ 0) :
    GoodDriver n m 0 { call := c, offered := 0, stored := 0, raced := [] } :=
  ⟨h, Nat.pos_of_ne_zero hc, Nat.zero_le _, Nat.le_refl 0⟩

/-! ### The whole state -/

/-- The invariant with `Q` judged in cycle `n`: during a clock edge, `n` is the cycle that begins. -/
structure State.InvAt (n : Nat) (s : State) : Prop where
  maxInflight : 1 ≤ s.maxInflight
  addrBits : 1 ≤ s.addrBits
  queue : GoodQueue s.maxInflight n s.queue
  mem : GoodMem s.addrBits s.mem
  driver : ∀ d ∈ s.driver, GoodDriver s.addrBits s.mem s.queue.length d

/-- The machine's invariant judges `Q` in the cycle that the state stands at. -/
theorem inv_iff_invAt (s : State) : s.Inv ↔ s.InvAt s.cycle :=
  ⟨fun ⟨hmax, haddr, hqueue, hmem, hdriver⟩ => ⟨hmax, haddr, hqueue, hmem, hdriver⟩,
    fun ⟨hmax, haddr, hqueue, hmem, hdriver⟩ => ⟨hmax, haddr, hqueue, hmem, hdriver⟩⟩

theorem invAt_succ {n : Nat} {s : State} (h : s.InvAt n) : s.InvAt (n + 1) := { h with queue := goodQueue_succ h.queue }

/-- Emptying `Q` keeps the invariant, in any cycle. -/
theorem invAt_emptyQueue {n k : Nat} {s : State} (h : s.InvAt n) : ({ s with queue := [] } : State).InvAt k :=
  { h with
    queue := goodQueue_nil _ _
    driver := fun d hd => goodDriver_mono (h.driver d hd) (Nat.zero_le _) (fun _ ha => ha) d.raced }

section Accepting

variable (blk : Block) (tile : Tile) (s : State)

@[simp] theorem accepting_queue : (accepting blk tile s).queue =
    s.queue ++ [{ blk := blk, tile := tile, nAcc := s.cycle, lat := s.latency }] := rfl
@[simp] theorem accepting_cycle : (accepting blk tile s).cycle = s.cycle := rfl
@[simp] theorem accepting_driver : (accepting blk tile s).driver = s.driver := rfl
@[simp] theorem accepting_mem : (accepting blk tile s).mem = s.mem := rfl

end Accepting

/-- What a decoded block enters `Q` with: the block itself, as it was offered, and its decode. -/
theorem accepting_encode_decode (b : Block) (s : State) :
    accepting (encode (decode b)) (decode b).tile s = accepting b (decodeBlock b) s := by
  rw [encode_decode, decodeBlock]

/-- The acceptance of a block on offer, with the driver's cursor moved, keeps the invariant for the cycle that begins. -/
theorem accepting_noteAccepted_invAt {s : State} {b : Block} (h : s.Inv) (hr : s.inReady = true)
    (ho : s.offer = .ok (some b)) : (accepting b (decodeBlock b) s).noteAccepted.InvAt (s.cycle + 1) := by
  rw [inv_iff_invAt] at h
  have hroom := ((inReady_iff s).1 hr).2
  refine ⟨h.maxInflight, h.addrBits, goodQueue_concat h.queue hroom rfl (Nat.le_add_left 1 _) rfl, h.mem, ?_⟩
  intro d hd
  obtain ⟨d0, hd0 : s.driver = some d0, rfl⟩ := Option.map_eq_some_iff.1 hd
  obtain ⟨-, ⟨hidle, -⟩ | ⟨d', hd', hlt, -⟩⟩ := offer_some ho
  · cases hidle.symm.trans hd0
  · obtain rfl : d' = d0 := Option.some.inj (hd'.symm.trans hd0)
    simpa using goodDriver_offer (h.driver d' hd') hlt

/-- A delivery keeps the invariant, whether the tile goes to the environment or to the driver. -/
theorem deliverHead_invAt {n : Nat} {s : State} (h : s.InvAt n) : s.deliverHead.InvAt n := by
  cases hq : s.queue with
  | nil => rwa [deliverHead_nil s hq]
  | cons e q =>
    have hqueue : GoodQueue s.maxInflight n s.deliverHead.queue := by simpa using goodQueue_tail h.queue
    cases hd : s.driver with
    | none =>
      rw [deliverHead_idle s hd] at hqueue ⊢
      exact { h with queue := hqueue, driver := by simp [hd] }
    | some d =>
      obtain ⟨hmem, hdriver⟩ := deliverHead_busy s hd hq
      have hgood : GoodDriver s.addrBits s.mem (q.length + 1) d := by simpa [hq] using h.driver d hd
      have ⟨hcall, hstored, _, _⟩ := hgood
      refine ⟨by simpa using h.maxInflight, by simpa using h.addrBits, by simpa using hqueue, ?_, ?_⟩
      · rw [deliverHead_addrBits, hmem]
        exact goodMem_scatter h.mem hcall hstored _
      · rw [hdriver, hmem, deliverHead_addrBits, deliverHead_queue, hq]
        split
        · rintro _ ⟨⟩
          exact goodDriver_store hgood ‹_› _
        · simp

/-- The tick ends the cycle: what holds for the cycle that begins is the invariant again. -/
theorem tick_inv {s : State} (h : s.InvAt (s.cycle + 1)) (p : Inputs) (o : Outputs) : (s.tick p o).Inv := by
  rw [inv_iff_invAt]
  refine ⟨h.maxInflight, h.addrBits, h.queue, goodMem_hostWrite h.mem _, fun d hd => ?_⟩
  obtain ⟨d0, hd0, rfl⟩ := Option.map_eq_some_iff.1 hd
  exact goodDriver_mono (h.driver d0 hd0) (Nat.le_refl _) (isSome_writeAll s.mem _) _

/-- The rest of a clock edge after the acceptance keeps the invariant: the delivery, if any, and the tick. -/
theorem clockEdge_inv {s0 s : State} {offered : Bool}
    (h : (if offered && s0.inReady then s.noteAccepted else s).InvAt (s.cycle + 1)) : (s0.clockEdge offered s).Inv := by
  unfold State.clockEdge
  apply tick_inv
  generalize hs : (if offered && s0.inReady then s.noteAccepted else s) = s1 at h ⊢
  have hcycle : s1.cycle = s.cycle := by rw [← hs]; split <;> rfl
  split
  · rw [deliverHead_cycle, hcycle]
    exact deliverHead_invAt h
  · rwa [hcycle]

/-- The start of a call keeps the invariant: the call is in contract and `Q` is empty. -/
theorem startCall_inv {s t : State} (h : s.Inv) (hs : s.callStarts = true) (hstep : startCall s = .next t) : t.Inv := by
  obtain ⟨c, rest, -, -, hq, hcall, rfl⟩ := startCall_cases hs hstep
  rw [inv_iff_invAt] at h ⊢
  refine { h with driver := ?_ }
  rw [hq]
  dsimp only
  split
  · simp
  · rintro _ ⟨⟩
    exact goodDriver_start hcall ‹_›

/-- A reset edge keeps the invariant. -/
theorem resetEdge_inv {s : State} (h : s.Inv) : s.resetEdge.Inv :=
  tick_inv (invAt_emptyQueue ((inv_iff_invAt s).1 h)) _ _

/-- Settles O48, by what a step can be: the start of a call, a reset edge, or a clock edge without an accepted block or
with one. -/
theorem stepKeepsInvariant : Obligations.StepKeepsInvariant := by
  intro s t h hstep
  have hnext : s.InvAt (s.cycle + 1) := invAt_succ ((inv_iff_invAt s).1 h)
  obtain ⟨hs, hstart⟩ | ⟨-, -, rfl⟩ | ⟨-, -, -, rfl⟩ | ⟨b, -, -, ho, rfl⟩ := step_cases hstep
  case inl => exact startCall_inv h hs hstart
  case inr.inl => exact resetEdge_inv h
  case inr.inr.inl => exact clockEdge_inv hnext
  case inr.inr.inr =>
    rw [accepting_encode_decode]
    cases hr : s.inReady with
    | false => exact clockEdge_inv (by simpa [hr] using hnext)
    | true => exact clockEdge_inv (by simpa [hr] using accepting_noteAccepted_invAt h hr ho)

end Sys2Proof.Machine
end

section
/-! What an accepted block leaves in `Q` (`10_state.md` R20, `20_memory.md` R51), and the ports after reset (R30). -/

namespace Sys2Proof.Machine

/-- A block is accepted in a cycle in which no call begins, `in_ready` is 1 and the block is on offer
(`70_reset_and_hazards.md` R283). -/
theorem acceptedBlock_some {s : State} {b : Block} (h : s.acceptedBlock = some b) :
    s.callStarts = false ∧ s.inReady = true ∧ s.offer = .ok (some b) := by
  unfold State.acceptedBlock at h
  split at h
  · cases h
  split at h
  · split at h
    · exact ⟨by simpa using ‹¬ s.callStarts = true›, ‹_›, h ▸ ‹_›⟩
    · cases h
  · cases h

/-- Only an entry of `Q` is delivered. -/
theorem queue_ne_nil_of_delivers {s : State} (h : s.delivers = true) : s.queue ≠ [] := by
  obtain ⟨hvalid, -⟩ := Bool.and_eq_true_iff.1 h
  obtain ⟨-, e, q, hq, -⟩ := (outValid_iff s).1 hvalid
  simp [hq]

/-- `Q` after a step that accepts block `b`: what was in flight, less the tile delivered at the same edge, and then the
entry of `b` with its decode. -/
theorem queue_of_acceptedBlock {s t : State} {b : Block} (h : step s = .next t) (hb : s.acceptedBlock = some b) :
    t.queue = (if s.delivers then s.queue.tail else s.queue) ++
      [{ blk := b, tile := decodeBlock b, nAcc := s.cycle, lat := s.latency }] := by
  obtain ⟨hs, hr, ho⟩ := acceptedBlock_some hb
  obtain ⟨hs', -⟩ | ⟨-, hrst, -⟩ | ⟨-, -, ho', -⟩ | ⟨b', -, -, ho', rfl⟩ := step_cases h
  case inl => simp [hs] at hs'
  case inr.inl => simp [((inReady_iff s).1 hr).1] at hrst
  case inr.inr.inl => simp [ho] at ho'
  case inr.inr.inr =>
    obtain rfl : b = b' := by simpa [ho] using ho'
    rw [accepting_encode_decode, if_pos hr, clockEdge_queue, accepting_queue]
    split
    · exact List.tail_append_of_ne_nil (queue_ne_nil_of_delivers ‹_›)
    · rfl

/-- Settles O53: whatever the state, the youngest entry of `Q` after the step holds `DecodeBlock` of the accepted block. -/
theorem tileDependsOnBlockAlone : Obligations.TileDependsOnBlockAlone := by
  intro s t s' t' _ _ hstep hstep' hsome hsame
  obtain ⟨b, hb⟩ := Option.isSome_iff_exists.1 hsome
  rw [queue_of_acceptedBlock hstep hb, queue_of_acceptedBlock hstep' (hsame ▸ hb)]
  simp

/-- Settles O46: with an empty `Q` and a capacity of at least 1, a cycle without `rst` has room and nothing to deliver. -/
theorem resetStateValues : Obligations.ResetStateValues := by
  refine ⟨rfl, rfl, rfl, fun p ps hrst => ⟨(inReady_iff _).2 ⟨hrst, reset_maxInflight_pos⟩, ?_⟩⟩
  rw [Bool.eq_false_iff, ne_eq, outValid_iff]
  rintro ⟨-, e, q, hq, -⟩
  cases hq

end Sys2Proof.Machine
end

section
/-! Three blocks of `95_test_vectors.md`, and what the block accepts and delivers over a run without reset
(`20_memory.md` R50, R54, `70_reset_and_hazards.md` R283, R285, R286). -/

namespace Sys2Proof.Machine

/-- Settles O6: the mode selector and the bitstream reader, run on each of the three blocks. -/
theorem sampleBlocksDecode : Obligations.SampleBlocksDecode :=
  ⟨by decide +kernel, by decide +kernel, by decide +kernel⟩

/-! ### Acceptance -/

/-- A block is accepted exactly in a cycle in which no call begins, `in_ready` is 1 and the block is on offer
(`70_reset_and_hazards.md` R283). -/
theorem acceptedBlock_eq_some_iff {s : State} {b : Block} :
    s.acceptedBlock = some b ↔ s.callStarts = false ∧ s.inReady = true ∧ s.offer = .ok (some b) := by
  refine ⟨acceptedBlock_some, fun ⟨hs, hr, ho⟩ => ?_⟩
  simp [State.acceptedBlock, hs, hr, ho]

/-- With nothing on offer nothing is accepted (`70_reset_and_hazards.md` R285). -/
theorem acceptedBlock_of_no_offer {s : State} (h : s.offer = .ok none) : s.acceptedBlock = none :=
  Option.eq_none_iff_forall_ne_some.2 fun b hb => by
    obtain ⟨-, -, ho⟩ := acceptedBlock_some hb
    cases h.symm.trans ho

/-- With no call in progress and `in_valid` = 1 the port `in_block` is on offer (`10_state.md` R27). -/
theorem offer_of_inValid {s : State} (hd : s.driver = none) (hv : s.envInputs.inValid = true) :
    s.offer = .ok (some s.envInputs.inBlock) := by
  simp [State.offer, hd, hv]

/-- With `in_valid` = 0 nothing is on offer (`70_reset_and_hazards.md` R285). -/
theorem offer_of_not_inValid {s : State} (hv : s.envInputs.inValid = false) : s.offer = .ok none := by
  simp [State.offer, hv]

/-- A call begins only while `Q` is empty (`47_image_driver.md` R241). -/
theorem queue_of_callStarts {s : State} (h : s.callStarts = true) : s.queue = [] := by
  unfold State.callStarts at h
  split at h
  · assumption
  · cases h

/-- A step that accepts nothing counts no transaction, and entries only leave `Q`: all of them at a reset, the oldest one
at a delivery. -/
theorem step_of_no_acceptance {s t : State} (h : step s = .next t) (hb : s.acceptedBlock = none) :
    t.accepted = s.accepted ∧
      t.queue = if s.rst then [] else if s.delivers then s.queue.tail else s.queue := by
  obtain ⟨hs, hstart⟩ | ⟨-, hrst, rfl⟩ | ⟨-, hrst, -, rfl⟩ | ⟨b, hs, hrst, ho, rfl⟩ := step_cases h
  case inl =>
    obtain ⟨c, rest, -, -, hq, -, rfl⟩ := startCall_cases hs hstart
    simp [hq]
  case inr.inl => simp [hrst]
  case inr.inr.inl => simp [hrst]
  case inr.inr.inr =>
    have hr : s.inReady = false := by
      rw [Bool.eq_false_iff]
      exact fun hr => by simp [acceptedBlock_eq_some_iff.2 ⟨hs, hr, ho⟩] at hb
    simp [hr, hrst]

/-- Settles O54: with `in_valid` = 1 the block on offer is `in_block`, so that the entry appended to `Q` is of it; with
`in_valid` = 0 nothing is on offer, and entries only leave `Q`. -/
theorem acceptanceCapturesInBlock : Obligations.AcceptanceCapturesInBlock := by
  constructor
  case left =>
    intro s t p ps hin hs hd hv hr h
    have hp : s.envInputs = p := by simp [State.envInputs, hin]
    have hb : s.acceptedBlock = some p.inBlock :=
      acceptedBlock_eq_some_iff.2 ⟨hs, hr, hp ▸ offer_of_inValid hd (hp ▸ hv)⟩
    exact ⟨_, by rw [queue_of_acceptedBlock h hb, List.getLast?_concat], rfl, rfl⟩
  case right =>
    intro s _ hv
    have ho := offer_of_not_inValid hv
    have hb := acceptedBlock_of_no_offer ho
    refine ⟨ho, hb, fun t h => ?_⟩
    obtain ⟨hacc, hq⟩ := step_of_no_acceptance h hb
    refine ⟨hacc, fun e he => ?_⟩
    rw [hq] at he
    split at he
    · cases he
    split at he
    · exact List.mem_of_mem_tail he
    · exact he

/-! ### Conservation of tiles -/

/-- What a step delivers, followed by what the delivery leaves in `Q`, is what was in `Q`. -/
theorem deliveredTile_append (s : State) :
    s.deliveredTile.toList ++ (if s.delivers then s.queue.tail else s.queue).map (fun e => formatTile e.tile) =
      s.queue.map fun e => formatTile e.tile := by
  unfold State.deliveredTile
  split
  case isTrue hs => simp [queue_of_callStarts hs]
  case isFalse =>
    split
    case isTrue hd =>
      obtain ⟨hvalid, -⟩ := Bool.and_eq_true_iff.1 hd
      obtain ⟨-, e, q, hq, -⟩ := (outValid_iff s).1 hvalid
      simp [hq, outTexels_valid hvalid hq]
    case isFalse => rfl

/-- `70_reset_and_hazards.md` R286 for one step without a reset: tiles delivered, then those in flight after it, are those
in flight before it, then that of the accepted block. -/
theorem step_conserves_tiles {s t : State} (h : step s = .next t) (hrst : s.rst = false) :
    s.deliveredTile.toList ++ t.queue.map (fun e => formatTile e.tile) =
      s.queue.map (fun e => formatTile e.tile) ++ s.acceptedBlock.toList.map fun b => formatTile (decodeBlock b) := by
  rw [← deliveredTile_append s]
  cases hb : s.acceptedBlock with
  | none => simp [(step_of_no_acceptance h hb).2, hrst]
  | some b => simp [queue_of_acceptedBlock h hb]

/-- A run of `k + 1` steps that answers a next state is a step and a run of `k` steps. -/
theorem run_succ {k : Nat} {s t : State} (h : Host.Core.run core (k + 1) s = .next t) :
    ∃ u, step s = .next u ∧ Host.Core.run core k u = .next t := by
  simp only [Host.Core.run] at h
  split at h
  case h_1 u hu => exact ⟨u, hu, h⟩
  case h_2 => cases h
  case h_3 => cases h

theorem acceptedTrace_succ {k : Nat} {s u : State} (h : step s = .next u) :
    acceptedTrace (k + 1) s = s.acceptedBlock.toList ++ acceptedTrace k u := by
  simp [acceptedTrace, h]

theorem deliveredTrace_succ {k : Nat} {s u : State} (h : step s = .next u) :
    deliveredTrace (k + 1) s = s.deliveredTile.toList ++ deliveredTrace k u := by
  simp [deliveredTrace, h]

theorem always_succ {P : State → Bool} {k : Nat} {s u : State} (h : step s = .next u) :
    always P (k + 1) s = true ↔ P s = true ∧ always P k u = true := by
  simp [always, h]

/-- `70_reset_and_hazards.md` R286 over a run without reset, by induction on its length: its first step delivers from the
front of what is in flight and puts its accepted block at the end. -/
theorem run_conserves_tiles {k : Nat} {s t : State} (hrun : always State.noReset k s = true)
    (h : Host.Core.run core k s = .next t) :
    deliveredTrace k s ++ t.queue.map (fun e => formatTile e.tile) =
      s.queue.map (fun e => formatTile e.tile) ++ (acceptedTrace k s).map fun b => formatTile (decodeBlock b) := by
  induction k generalizing s with
  | zero =>
    cases h
    simp [deliveredTrace, acceptedTrace]
  | succ k ih =>
    obtain ⟨u, hu, hk⟩ := run_succ h
    obtain ⟨hrst, hrest⟩ := (always_succ hu).1 hrun
    have hstep := step_conserves_tiles hu (by simpa [State.noReset] using hrst)
    rw [deliveredTrace_succ hu, acceptedTrace_succ hu, List.append_assoc, ih hrest hk, ← List.append_assoc, hstep,
      List.map_append, List.append_assoc]

/-- Settles O51: tiles are conserved over a run from any state, a good one in particular. -/
theorem deliveryInOrderExactlyOnce : Obligations.DeliveryInOrderExactlyOnce :=
  fun _ _ _ _ hrun h => run_conserves_tiles hrun h

end Sys2Proof.Machine
end

section
/-! What a step writes to host memory (`20_memory.md` R40, `47_image_driver.md` R234), and why the order of the blocks of
a call does not matter (R237). -/

namespace Sys2Proof.Machine

/-! ### Bytes that a step does not write -/

/-- An address that other agents do not write reads as before their writes. -/
theorem read_hostWrite_of_notMem (n : Nat) (m : Memory) {l : List Host.Cell} {a : Nat} (h : a ∉ l.map (·.1)) :
    (Memory.hostWrite n m l).read a = m.read a :=
  read_writeAll_of_notMem m _ fun ha => h (List.map_subset _ (List.filter_subset_self l) ha)

/-- The scatter of a tile changes no byte but its 64 destination bytes (`47_image_driver.md` R233). -/
theorem read_scatter_of_ne {c : Call} {k a : Nat} (m : Memory) (T : Tile)
    (h : ∀ x ch, x < 16 → ch < 4 → a ≠ c.dstAddr k x ch) : (c.scatter m k T).read a = m.read a := by
  refine read_writeAll_of_notMem m _ fun ha => ?_
  obtain ⟨x, ch, hx, hch, rfl⟩ := tileCells_addr c k T ha
  exact h x ch hx hch rfl

/-- `a` is no destination byte of the tile that a driver call in progress stores next. -/
def State.OutsideNextTile (s : State) (a : Nat) : Prop :=
  ∀ d, s.driver = some d → ∀ x ch, x < 16 → ch < 4 → a ≠ d.call.dstAddr d.stored x ch

/-- The driver's source cursor has no part in where its next tile goes. -/
theorem outsideNextTile_noteAccepted {s : State} {a : Nat} (h : s.OutsideNextTile a) :
    s.noteAccepted.OutsideNextTile a := by
  intro d hd
  obtain ⟨d0, hd0, rfl⟩ := Option.map_eq_some_iff.1 hd
  exact h d0 hd0

/-- A delivery changes no byte outside the tile that the driver stores. -/
theorem read_deliverHead {s : State} {a : Nat} (h : s.OutsideNextTile a) :
    s.deliverHead.mem.read a = s.mem.read a := by
  cases hd : s.driver with
  | none => rw [deliverHead_idle s hd]
  | some d =>
    cases hq : s.queue with
    | nil => rw [deliverHead_nil s hq]
    | cons e q =>
      rw [(deliverHead_busy s hd hq).1]
      exact read_scatter_of_ne _ _ (h d hd)

/-- A clock edge changes no byte but those that other agents write in its cycle and, at a delivery, those of the tile that
the driver stores. -/
theorem read_clockEdge {s0 s : State} {offered : Bool} {a : Nat} (ha : a ∉ s0.envInputs.hostWrites.map (·.1))
    (h : s0.delivers = true → s.OutsideNextTile a) : (s0.clockEdge offered s).mem.read a = s.mem.read a := by
  unfold State.clockEdge
  rw [tick_mem, read_hostWrite_of_notMem _ _ ha]
  split
  case isTrue hdel =>
    split
    · exact read_deliverHead (outsideNextTile_noteAccepted (h hdel))
    · exact read_deliverHead (h hdel)
  case isFalse => split <;> rfl

/-- Settles O55: the start of a call writes no memory, a reset edge only what other agents write, and a clock edge that and
the tile of block `stored`. -/
theorem memoryChangesOnlyByScatter : Obligations.MemoryChangesOnlyByScatter := by
  intro s t h a ha htile
  have hout : s.callStarts = false → s.delivers = true → s.OutsideNextTile a := fun hs hdel d hd => htile d hd hdel hs
  obtain ⟨hs, hstart⟩ | ⟨-, -, rfl⟩ | ⟨hs, -, -, rfl⟩ | ⟨b, hs, -, -, rfl⟩ := step_cases h
  case inl =>
    obtain ⟨c, rest, -, -, -, -, rfl⟩ := startCall_cases hs hstart
    rfl
  case inr.inl => exact read_hostWrite_of_notMem _ _ ha
  case inr.inr.inl => exact read_clockEdge ha (hout hs)
  case inr.inr.inr =>
    cases s.inReady
    · exact read_clockEdge ha (hout hs)
    · exact read_clockEdge ha (hout hs)

/-! ### Writes at different addresses commute -/

/-- Two writes at different addresses commute. -/
theorem write_comm (m : Memory) {a b : Nat} (v w : Byte) (h : a ≠ b) :
    (m.write a v).write b w = (m.write b w).write a v := by
  wlog hab : a < b generalizing a b v w
  · exact (this w v h.symm (by omega)).symm
  induction m with
  | nil => simp [Memory.write, hab, hab.not_gt, h.symm]
  | cons c m ih =>
    obtain ⟨x, u⟩ := c
    rcases Nat.lt_trichotomy a x with hax | rfl | hxa
    · rcases Nat.lt_trichotomy b x with hbx | rfl | hxb
      · simp [Memory.write, hab, hab.not_gt, hax, hbx, h.symm]
      · simp [Memory.write, hab, hab.not_gt, h.symm]
      · simp [Memory.write, hab.not_gt, hax, hxb.not_gt, hxb.ne', h.symm]
    · simp [Memory.write, hab.not_gt, h.symm]
    · have hxb : x < b := hxa.trans hab
      simp [Memory.write, hxa.not_gt, hxa.ne', hxb.not_gt, hxb.ne', ih]

/-- A write commutes with writes at other addresses. -/
theorem writeAll_write_comm (m : Memory) {l : List Host.Cell} {a : Nat} (v : Byte) (h : a ∉ l.map (·.1)) :
    (m.write a v).writeAll l = (m.writeAll l).write a v := by
  induction l generalizing m with
  | nil => rfl
  | cons c l ih =>
    simp only [List.map_cons, List.mem_cons, not_or] at h
    obtain ⟨hc, hl⟩ := h
    rw [writeAll_cons, write_comm m _ _ hc, ih _ hl, writeAll_cons]

/-- Two runs of writes that share no address commute. -/
theorem writeAll_comm (m : Memory) {l l' : List Host.Cell} (h : (l.map (·.1)).Disjoint (l'.map (·.1))) :
    (m.writeAll l).writeAll l' = (m.writeAll l').writeAll l := by
  induction l generalizing m with
  | nil => rfl
  | cons c l ih =>
    obtain ⟨hc, hl⟩ := List.disjoint_cons_left.1 h
    rw [writeAll_cons, ih _ hl, writeAll_write_comm m _ hc, writeAll_cons]

/-! ### The order of the blocks -/

/-- An address is the start of an image row plus an offset below the pitch in one way only. -/
theorem row_offset_inj {p y o y' o' : Nat} (ho : o < p) (ho' : o' < p) (h : y * p + o = y' * p + o') :
    y = y' ∧ o = o' := by
  have hp : 0 < p := Nat.zero_lt_of_lt ho
  constructor
  · simpa [Nat.mul_add_div, Nat.mul_comm _ p, hp, Nat.div_eq_of_lt, ho, ho'] using congrArg (· / p) h
  · simpa [Nat.mul_add_mod, Nat.mul_comm _ p, Nat.mod_eq_of_lt, ho, ho'] using congrArg (· % p) h

/-- `47_image_driver.md` R243 item 1: in an image that has blocks, a destination address tells its block, texel and
channel. -/
theorem dstAddr_inj {c : Call} (hp : 4 * c.w ≤ c.pitch) (hr : 0 < c.rowBlocks) {k t ch k' t' ch' : Nat} (ht : t < 16)
    (hch : ch < 4) (ht' : t' < 16) (hch' : ch' < 4) (h : c.dstAddr k t ch = c.dstAddr k' t' ch') :
    k = k' ∧ t = t' ∧ ch = ch' := by
  have hw : 4 * c.rowBlocks ≤ c.w := Nat.mul_div_le c.w 4
  have hx := Nat.mod_lt k hr
  have hx' := Nat.mod_lt k' hr
  unfold Call.dstAddr at h
  obtain ⟨hrow, hoff⟩ := row_offset_inj (p := c.pitch) (y := 4 * (k / c.rowBlocks) + t / 4)
    (y' := 4 * (k' / c.rowBlocks) + t' / 4) (o := (4 * (k % c.rowBlocks) + t % 4) * 4 + ch)
    (o' := (4 * (k' % c.rowBlocks) + t' % 4) * 4 + ch') (by omega) (by omega) (by omega)
  have hk : k = k' := Nat.ext_div_mod (n := c.rowBlocks) (by omega) (by omega)
  exact ⟨hk, by omega, by omega⟩

/-- The tiles of different blocks of an in-contract call share no destination byte. -/
theorem tileCells_disjoint {c : Call} {n : Nat} {m : Memory} (h : c.violation n m = none) {j k : Nat} (hj : j < c.blocks)
    (hjk : j ≠ k) (T U : Tile) :
    ((c.tileCells j T).map (·.1)).Disjoint ((c.tileCells k U).map (·.1)) := by
  intro a ha ha'
  obtain ⟨-, -, hp, -⟩ := violation_none h
  have hr : 0 < c.rowBlocks := Nat.pos_of_mul_pos_right (Nat.zero_lt_of_lt hj)
  obtain ⟨t, ch, ht, hch, rfl⟩ := tileCells_addr c j T ha
  obtain ⟨t', ch', ht', hch', heq⟩ := tileCells_addr c k U ha'
  exact hjk (dstAddr_inj hp hr ht hch ht' hch' heq).1

/-- No source byte of an in-contract call is a destination byte of it (`47_image_driver.md` R240). -/
theorem srcAddr_ne_dstAddr {c : Call} {n : Nat} {m : Memory} (h : c.violation n m = none) {j i k t ch : Nat}
    (hj : j < c.blocks) (hi : i < 16) (hk : k < c.blocks) (ht : t < 16) (hch : ch < 4) :
    c.srcAddr j i ≠ c.dstAddr k t ch := by
  obtain ⟨-, -, -, hbuf⟩ := violation_none h
  obtain ⟨-, -, -, hdisj⟩ := hbuf (isEmpty_of_blocks (Nat.zero_lt_of_lt hj))
  obtain ⟨-, hlo, hhi⟩ := dst_bound h hk ht hch
  unfold Call.srcBytes at hdisj
  unfold Call.srcAddr
  omega

/-- The scatter of a tile of an in-contract call leaves every source block as it is. -/
theorem blockAt_scatter {c : Call} {n : Nat} {m : Memory} (h : c.violation n m = none) {j k : Nat} (hj : j < c.blocks)
    (hk : k < c.blocks) (m' : Memory) (T : Tile) : c.blockAt (c.scatter m' k T) j = c.blockAt m' j := by
  unfold Call.blockAt
  refine congrArg blockOfBytes (List.map_congr_left fun i hi => ?_)
  rw [read_scatter_of_ne _ _ fun t ch ht hch => srcAddr_ne_dstAddr h hj (List.mem_range.1 hi) hk ht hch]

/-- Two turns of the loop of an in-contract call commute: neither changes the source block of the other, and their tiles
share no byte. -/
theorem doBlock_comm {c : Call} {n : Nat} {m : Memory} (h : c.violation n m = none) {j k : Nat} (hj : j < c.blocks)
    (hk : k < c.blocks) (m' : Memory) : c.doBlock (c.doBlock m' j) k = c.doBlock (c.doBlock m' k) j := by
  rcases eq_or_ne j k with rfl | hjk
  · rfl
  · simp only [Call.doBlock, blockAt_scatter h hj hk, blockAt_scatter h hk hj]
    exact writeAll_comm m' (tileCells_disjoint h hj hjk _ _)

/-- `47_image_driver.md` R237: any order of block numbers of an in-contract call gives the same memory. -/
theorem doBlocks_perm {c : Call} {n : Nat} {m : Memory} (h : c.violation n m = none) {ks ls : List Nat}
    (hperm : ks.Perm ls) (hks : ∀ k ∈ ks, k < c.blocks) (m' : Memory) : c.doBlocks m' ks = c.doBlocks m' ls :=
  hperm.foldl_eq' (fun j hj k hk m'' => doBlock_comm h (hks j hj) (hks k hk) m'') m'

/-- Settles O59: `DecodeImage` takes the blocks in rising order, of which `ks` is a permutation. -/
theorem shardingGivesTheSameImage : Obligations.ShardingGivesTheSameImage := by
  intro n c m ks _ hcall hperm
  have hks : ∀ k ∈ ks, k < c.blocks := fun k hk => List.mem_range.1 (hperm.subset hk)
  rw [decodeImage, hcall, doBlocks_perm hcall hperm hks]

end Sys2Proof.Machine
end

section
/-! Every well-formed instruction is the decode of its block. A term is well-formed exactly when its field values fill
the layout of its mode (`30_encoding.md` R62–R67), which is also what `unpack` answers, so one predicate carries both
directions of the round trip. -/

namespace Sys2Proof

open Sys2Proof.Machine

/-! ### Field values that fill their widths -/

/-- The values `vs` fit the widths `ws`, one value for each width. -/
def Fits (vs ws : List Nat) : Prop := List.Forall₂ (fun v w => v < 2 ^ w) vs ws

/-- A field that was read fits the width it was read with. -/
theorem fits_readFields (blk c : Nat) (ws : List Nat) : Fits (readFields blk c ws).1 ws := by
  induction ws generalizing c with
  | nil => exact .nil
  | cons w ws ih => exact .cons (Nat.mod_lt _ (Nat.two_pow_pos w)) (ih _)

/-- Channels and P-bits: bit vectors fit their own width, so only their number counts. -/
theorem fits_replicate {n w : Nat} (l : List (BitVec w)) :
    Fits (l.map (·.toNat)) (List.replicate n w) ↔ l.length = n := by
  refine ⟨fun h => by simpa using h.length_eq, ?_⟩
  rintro rfl
  rw [← List.map_const', Fits, List.forall₂_map_left_iff, List.forall₂_map_right_iff, List.forall₂_same]
  exact fun x _ => x.isLt

/-- A section that the mode does not have holds no value. -/
theorem fits_nil {vs : List Nat} : Fits vs [] ↔ vs = [] := List.forall₂_nil_right_iff

/-- The widths of 16 indices of `w` bits, one bit narrower at the texels `narrow` (`30_encoding.md` R66). -/
def narrowedWidths (w : Nat) (narrow : List Nat) : List Nat :=
  (List.range 16).map fun t => w - if t ∈ narrow then 1 else 0

/-- The primary set is narrowed at the anchors of the partition (`30_encoding.md` R66). -/
theorem primaryWidths_eq (D : ModeDesc) (part : Nat) :
    primaryWidths D part = narrowedWidths D.colorIndexBits (anchors D.partitionCount part) := by
  refine List.map_congr_left fun t _ => ?_
  simp only [isAnchor, List.contains_iff_mem]
  split <;> rfl

/-- The secondary set is narrowed as in a block with one subset (`30_encoding.md` R67). -/
theorem secondaryWidths_eq {D : ModeDesc} (h : D.alphaIndexBits ≠ 0) :
    secondaryWidths D = narrowedWidths D.alphaIndexBits (anchors 1 0) := by
  rw [secondaryWidths, if_neg h]
  refine List.map_congr_left fun t _ => ?_
  simp only [anchors, List.mem_singleton]
  split <;> rfl

theorem secondaryWidths_nil {D : ModeDesc} (h : D.alphaIndexBits = 0) : secondaryWidths D = [] := if_pos h

/-- The check on an index set (`43_index_unpack.md` R163) says that the indices fit the narrowed widths. An anchor
outside the list counts as index 0, which is narrow. -/
theorem fits_narrowedWidths {ns part w : Nat} (idx : List (BitVec w)) :
    Fits (idx.map (·.toNat)) (narrowedWidths w (anchors ns part)) ↔ indexSetOk ns part idx = true := by
  rw [Fits, List.forall₂_iff_get]
  simp only [indexSetOk, anchorsNarrow, narrowedWidths, Bool.and_eq_true, beq_iff_eq, List.all_eq_true,
    decide_eq_true_eq, List.length_map, List.length_range, List.get_eq_getElem, List.getElem_map, List.getElem_range]
  refine and_congr_right fun hlen => ⟨fun h t ht => ?_, fun h t ht _ => ?_⟩
  · rcases Nat.lt_or_ge t idx.length with hlt | hge
    · simpa [ht, hlt] using h t hlt (hlen ▸ hlt)
    · simp [hge]
  · split
    case isTrue hA => simpa [ht] using h t hA
    case isFalse => exact idx[t].isLt

/-! ### The layout of a mode -/

/-- The field values `f` fill the layout of mode `m`: each section has its mode's number of fields, each in its
width. -/
structure FillsLayout (m : Nat) (f : Fields) : Prop where
  part : f.part < 2 ^ (modeDesc m).partitionBits
  rot : f.rot < 2 ^ (modeDesc m).rotationBits
  isel : f.isel < 2 ^ (modeDesc m).indexSelectionBits
  r : Fits f.r (colorWidths (modeDesc m))
  g : Fits f.g (colorWidths (modeDesc m))
  b : Fits f.b (colorWidths (modeDesc m))
  a : Fits f.a (alphaWidths (modeDesc m))
  pbits : Fits f.pbits (pBitWidths (modeDesc m))
  idx1 : Fits f.idx1 (primaryWidths (modeDesc m) f.part)
  idx2 : Fits f.idx2 (secondaryWidths (modeDesc m))

/-- What `unpack` answers fills the layout of its mode. -/
theorem unpack_fillsLayout (m blk : Nat) : FillsLayout m (unpack m blk).1 := by
  rw [unpack_eq]
  exact {
    part := Nat.mod_lt _ (Nat.two_pow_pos _)
    rot := Nat.mod_lt _ (Nat.two_pow_pos _)
    isel := Nat.mod_lt _ (Nat.two_pow_pos _)
    r := fits_readFields _ _ _
    g := fits_readFields _ _ _
    b := fits_readFields _ _ _
    a := fits_readFields _ _ _
    pbits := fits_readFields _ _ _
    idx1 := fits_readFields _ _ _
    idx2 := fits_readFields _ _ _ }

/-- The sections one by one. -/
theorem fillsLayout_iff (m : Nat) (f : Fields) :
    FillsLayout m f ↔ f.part < 2 ^ (modeDesc m).partitionBits ∧ f.rot < 2 ^ (modeDesc m).rotationBits ∧
      f.isel < 2 ^ (modeDesc m).indexSelectionBits ∧ Fits f.r (colorWidths (modeDesc m)) ∧
      Fits f.g (colorWidths (modeDesc m)) ∧ Fits f.b (colorWidths (modeDesc m)) ∧
      Fits f.a (alphaWidths (modeDesc m)) ∧ Fits f.pbits (pBitWidths (modeDesc m)) ∧
      Fits f.idx1 (primaryWidths (modeDesc m) f.part) ∧ Fits f.idx2 (secondaryWidths (modeDesc m)) :=
  ⟨fun ⟨hpart, hrot, hisel, hr, hg, hb, ha, hp, h1, h2⟩ => ⟨hpart, hrot, hisel, hr, hg, hb, ha, hp, h1, h2⟩,
    fun ⟨hpart, hrot, hisel, hr, hg, hb, ha, hp, h1, h2⟩ => ⟨hpart, hrot, hisel, hr, hg, hb, ha, hp, h1, h2⟩⟩

/-- In modes 0 to 7 well-formed means that the fields fill the layout. -/
theorem wf_iff_fillsLayout {i : Instr} (hi : i.mode ≠ 8) : i.wf = true ↔ FillsLayout i.mode i.fields := by
  have hbit (x : BitVec 1) : x.toNat ≤ 1 := Nat.le_of_lt_succ x.isLt
  cases i
  case invalid => exact absurd rfl hi
  all_goals
    simp [-List.reduceReplicate, -Nat.reducePow, fillsLayout_iff, Instr.mode, Instr.fields, Instr.wf, colorsOk,
      modeDesc, colorWidths, alphaWidths, pBitWidths, primaryWidths_eq, secondaryWidths_eq, secondaryWidths_nil,
      ModeDesc.endpointCount, ModeDesc.pBitCount, fits_replicate, fits_nil, fits_narrowedWidths, BitVec.isLt, hbit,
      and_assoc]

/-- A field that is packed at the cursor is read there, and what is packed behind it stands at the advanced cursor. -/
theorem readField_of_pack {blk c v w : Nat} {rest : List (Nat × Nat)} (hv : v < 2 ^ w)
    (h : blk >>> c = pack ((v, w) :: rest)) : (blk >>> c) % 2 ^ w = v ∧ blk >>> (c + w) = pack rest := by
  simpa using readFields_pack blk c [v] [w] rest rfl (by simpa using hv) h

/-- A section that is packed at the cursor is read there. -/
theorem readFields_of_pack {blk c : Nat} {vs ws : List Nat} {rest : List (Nat × Nat)} (hv : Fits vs ws)
    (h : blk >>> c = pack (vs.zip ws ++ rest)) :
    (readFields blk c ws).1 = vs ∧ blk >>> (c + ws.sum) = pack rest :=
  readFields_pack blk c vs ws rest hv.length_eq (fun _ hp => (List.forall₂_iff_zip.1 hv).2 hp) h

/-- The mode bits in front (`30_encoding.md` R61) select the mode. -/
theorem modeSelect_of_mod {x m : Nat} (hm : m < 8) (h : x % 2 ^ (m + 1) = 2 ^ m) : modeSelect x = m := by
  have hbit : ∀ j ≤ m, x.testBit j = decide (m = j) := fun j hj => by
    rw [← Nat.testBit_two_pow, ← h, Nat.testBit_mod_two_pow]
    simp [Nat.lt_succ_of_le hj]
  exact (modeSelect_lt hm).2 ⟨by simp [hbit m le_rfl], fun j hj => by simp [hbit j hj.le, hj.ne']⟩

/-- The bitstream reader reads back everything that was packed. -/
theorem unpack_pack {m : Nat} {f : Fields} (hf : FillsLayout m f) : (unpack m (pack (fieldLayout m f))).1 = f := by
  generalize hblk : pack (fieldLayout m f) = blk
  have h0 : blk >>> 0 = pack (fieldLayout m f) := hblk.symm
  rw [fieldLayout, ← List.append_nil (_ ++ _)] at h0
  simp only [List.append_assoc, List.cons_append, List.nil_append] at h0
  obtain ⟨-, h0⟩ := readField_of_pack (Nat.pow_lt_pow_right Nat.one_lt_two m.lt_succ_self) h0
  rw [Nat.zero_add] at h0
  obtain ⟨hpart, h1⟩ := readField_of_pack hf.part h0
  obtain ⟨hrot, h2⟩ := readField_of_pack hf.rot h1
  obtain ⟨hisel, h3⟩ := readField_of_pack hf.isel h2
  obtain ⟨hr, h4⟩ := readFields_of_pack hf.r h3
  obtain ⟨hg, h5⟩ := readFields_of_pack hf.g h4
  obtain ⟨hb, h6⟩ := readFields_of_pack hf.b h5
  obtain ⟨ha, h7⟩ := readFields_of_pack hf.a h6
  obtain ⟨hp, h8⟩ := readFields_of_pack hf.pbits h7
  obtain ⟨hi1, h9⟩ := readFields_of_pack hf.idx1 h8
  obtain ⟨hi2, -⟩ := readFields_of_pack hf.idx2 h9
  rw [unpack_eq]
  simp only [hpart, hrot, hisel, hr, hg, hb, ha, hp, hi1, hi2]

/-- The mode bits of a packed layout. -/
theorem modeSelect_pack {m : Nat} (hm : m < 8) (f : Fields) : modeSelect (pack (fieldLayout m f)) = m := by
  apply modeSelect_of_mod hm
  simp only [fieldLayout, List.cons_append, pack_cons, Nat.add_mul_mod_self_left, Nat.mod_mod]
  exact Nat.mod_eq_of_lt (Nat.pow_lt_pow_right Nat.one_lt_two m.lt_succ_self)

/-- The instruction made of the fields of an instruction is that instruction. -/
theorem ofFields_fields {i : Instr} (hi : i.mode ≠ 8) : Instr.ofFields i.mode i.fields = i := by
  cases i
  case invalid => exact absurd rfl hi
  all_goals simp only [Instr.mode, Instr.fields, Instr.ofFields, toNat_toWidth, BitVec.ofNat_toNat, BitVec.setWidth_eq]

/-- Every instruction but INVALID has one of the modes 0 to 7. -/
theorem mode_lt {i : Instr} (hi : i.mode ≠ 8) : i.mode < 8 := by
  cases i
  case invalid => exact absurd rfl hi
  all_goals exact of_decide_eq_true rfl

/-- The widths of a well-formed instruction's fields sum to 128 (`30_encoding.md` R77). -/
theorem fillsBlock (i : Instr) : Laws.FillsBlock.Statement i := by
  cases i with
  | mode0 => apply Laws.FillsBlock.mode0
  | mode1 => apply Laws.FillsBlock.mode1
  | mode2 => apply Laws.FillsBlock.mode2
  | mode3 => apply Laws.FillsBlock.mode3
  | mode4 => apply Laws.FillsBlock.mode4
  | mode5 => apply Laws.FillsBlock.mode5
  | mode6 => apply Laws.FillsBlock.mode6
  | mode7 => apply Laws.FillsBlock.mode7
  | invalid => apply Laws.FillsBlock.invalid

/-- No packed bit is lost in the 128 bits of a block. -/
theorem encode_toNat {i : Instr} (hi : i.mode ≠ 8) (h : i.wf = true) :
    (encode i).toNat = pack (fieldLayout i.mode i.fields) := by
  have hlt := pack_lt (fieldLayout i.mode i.fields)
  rw [(fillsBlock i h).resolve_left hi] at hlt
  rw [encode_eq i hi, BitVec.toNat_ofNat, Nat.mod_eq_of_lt hlt]

/-- The decode of a block whose mode is below 8. -/
theorem decode_of_modeSelect {blk : Block} {m : Nat} (hm : m < 8) (h : modeSelect blk.toNat = m) :
    decode blk = Instr.ofFields m (unpack m blk.toNat).1 := by
  simp only [decode, h, if_neg hm.ne]

/-- The reserved mode keeps its 120 ignored bits above a low byte of 0 (`30_encoding.md` R79). -/
theorem decode_encode_invalid (rest : BitVec 120) : decode (encode (.invalid rest)) = .invalid rest := by
  have hmode : modeSelect (rest ++ 0#8).toNat = 8 := by
    refine (modeSelect_le _).antisymm (Nat.le_of_not_lt fun hm => ?_)
    have hbit := ((modeSelect_lt hm).1 rfl).1
    rw [BitVec.testBit_toNat, BitVec.getLsbD_append] at hbit
    simp [hm] at hbit
  have hrest : (rest ++ 0#8).extractLsb' 8 120 = rest := BitVec.extractLsb'_append_eq_left
  simp only [encode, decode, hmode, if_true, hrest]

/-- Settles O2: a well-formed instruction's fields fill its layout, so that reading undoes packing section by section;
the mode bits in front select its mode again. -/
theorem decodeOfEncode : Obligations.DecodeOfEncode := by
  intro i hwf
  by_cases hi : i.mode = 8
  case pos =>
    cases i
    case invalid rest => exact decode_encode_invalid rest
    all_goals cases hi
  case neg =>
    have hm := mode_lt hi
    have hblk := encode_toNat hi hwf
    rw [decode_of_modeSelect hm (by rw [hblk, modeSelect_pack hm]), hblk,
      unpack_pack ((wf_iff_fillsLayout hi).1 hwf), ofFields_fields hi]

/-- Settles O3: packing what was read from the block gives its 128 bits back. -/
theorem encodeOfDecode : Obligations.EncodeOfDecode := encode_decode

/-- Settles O4: what was unpacked fills the layout of the selected mode. -/
theorem decodedIsWellFormed : Obligations.DecodedIsWellFormed := by
  intro blk
  rcases (modeSelect_le blk.toNat).lt_or_eq with hm | h8
  · have hmode := ofFields_mode _ hm (unpack (modeSelect blk.toNat) blk.toNat).1
    rw [decode_of_modeSelect hm rfl, wf_iff_fillsLayout (hmode.trans_ne hm.ne), hmode,
      fields_ofFields hm (unpack_fits _ _)]
    exact unpack_fillsLayout _ _
  · simp only [decode, h8, if_true, Instr.wf]

end Sys2Proof
end

section
/-! Where every field of a block stands (`30_encoding.md` R68–R76): the first bit of each section, and each section as
slices of the block. The field maps of the eight modes are these lemmas at the mode's number. -/

namespace Sys2Proof

open Sys2Proof.Machine

/-! ### The first bit of each section -/

/-- The first bit of colour channel `ch` (0 for R, 1 for G, 2 for B): behind the mode, partition, rotation and index
selection bits (`30_encoding.md` R62). -/
def colorStart (m ch : Nat) : Nat :=
  m + 1 + (modeDesc m).partitionBits + (modeDesc m).rotationBits + (modeDesc m).indexSelectionBits +
    ch * ((modeDesc m).endpointCount * (modeDesc m).colorBits)

/-- The first bit of the alpha fields. -/
def alphaStart (m : Nat) : Nat := colorStart m 3

/-- The first bit of the P-bits. -/
def pBitStart (m : Nat) : Nat := alphaStart m + (modeDesc m).endpointCount * (modeDesc m).alphaBits

/-- Where the primary index region ends (`30_encoding.md` R76); in modes 4 and 5 the secondary region starts there. -/
def primaryEnd (m : Nat) : Nat := if m = 4 then 81 else if m = 5 then 97 else 128

theorem colorWidths_sum (D : ModeDesc) : (colorWidths D).sum = D.endpointCount * D.colorBits := by
  simp [colorWidths]

theorem alphaWidths_sum (D : ModeDesc) : (alphaWidths D).sum = D.endpointCount * D.alphaBits := by
  unfold alphaWidths
  split
  case isTrue h => simp [h]
  case isFalse => simp

/-- The primary index region starts behind the P-bits (`30_encoding.md` R62, R76). -/
theorem pBitStart_add_pBitCount {m : Nat} (hm : m < 8) :
    pBitStart m + (modeDesc m).pBitCount = Claims.primaryStart m := by
  decide +revert

/-- The secondary index region, where there is one, ends with the block (`30_encoding.md` R76, R77). -/
theorem primaryEnd_add_sum {m : Nat} (hm : m < 8) : primaryEnd m + (secondaryWidths (modeDesc m)).sum = 128 := by
  decide +revert

/-- The two modes with a secondary index set. -/
theorem primaryEnd_of_secondary {m : Nat} (hm : m < 8) (h : 0 < (modeDesc m).alphaIndexBits) :
    primaryEnd m = if m = 4 then 81 else 97 := by
  decide +revert

section Sections

variable (m blk : Nat)

theorem unpack_part : (unpack m blk).1.part = (blk >>> (m + 1)) % 2 ^ (modeDesc m).partitionBits := by
  rw [unpack_eq]

theorem unpack_r : (unpack m blk).1.r = (readFields blk (colorStart m 0) (colorWidths (modeDesc m))).1 := by
  rw [unpack_eq]
  simp [colorStart]

theorem unpack_g : (unpack m blk).1.g = (readFields blk (colorStart m 1) (colorWidths (modeDesc m))).1 := by
  rw [unpack_eq]
  simp [colorStart, colorWidths_sum]

theorem unpack_b : (unpack m blk).1.b = (readFields blk (colorStart m 2) (colorWidths (modeDesc m))).1 := by
  rw [unpack_eq]
  simp [colorStart, colorWidths_sum, Nat.two_mul, Nat.add_assoc]

/-- Behind the third colour channel. -/
theorem colorStart_three : colorStart m 3 = colorStart m 0 + (colorWidths (modeDesc m)).sum +
    (colorWidths (modeDesc m)).sum + (colorWidths (modeDesc m)).sum := by
  simp only [colorStart, colorWidths_sum]
  ring

theorem unpack_a : (unpack m blk).1.a = (readFields blk (alphaStart m) (alphaWidths (modeDesc m))).1 := by
  rw [unpack_eq, alphaStart, colorStart_three]
  simp [colorStart]

theorem unpack_pbits : (unpack m blk).1.pbits = (readFields blk (pBitStart m) (pBitWidths (modeDesc m))).1 := by
  rw [unpack_eq, pBitStart, ← alphaWidths_sum, alphaStart, colorStart_three]
  simp [colorStart]

variable {m}

theorem unpack_idx1 (hm : m < 8) : (unpack m blk).1.idx1 =
    (readFields blk (Claims.primaryStart m) (primaryWidths (modeDesc m) (unpack m blk).1.part)).1 := by
  rw [← pBitStart_add_pBitCount hm, pBitStart, ← alphaWidths_sum, alphaStart, colorStart_three, unpack_eq]
  simp [colorStart, pBitWidths]

/-- The region of the primary indices, whatever the partition. -/
theorem primaryStart_add_sum (hm : m < 8) :
    Claims.primaryStart m + (primaryWidths (modeDesc m) (unpack m blk).1.part).sum = primaryEnd m := by
  have hend := primaryEnd_add_sum hm
  have hcur := unpack_cursor_eq m blk hm
  rw [unpack_cursor, colorWidths_sum, alphaWidths_sum, pBitWidths, List.sum_replicate] at hcur
  rw [← pBitStart_add_pBitCount hm, pBitStart, alphaStart, colorStart]
  simp only [smul_eq_mul] at hcur
  omega

theorem unpack_idx2 (hm : m < 8) : (unpack m blk).1.idx2 =
    (readFields blk (primaryEnd m) (secondaryWidths (modeDesc m))).1 := by
  rw [← primaryStart_add_sum blk hm, ← pBitStart_add_pBitCount hm, pBitStart, ← alphaWidths_sum, alphaStart,
    colorStart_three, unpack_eq]
  simp [colorStart, pBitWidths]

end Sections

/-! ### Index fields -/

/-- Where a field of a narrowed index set starts: behind the widths of the fields before it. -/
theorem fieldStart_eq (start w : Nat) (narrow : List Nat) {t : Nat} (ht : t ≤ 16) :
    Claims.fieldStart start w narrow t = start + ((narrowedWidths w narrow).take t).sum := by
  rw [Claims.fieldStart, narrowedWidths, ← List.map_take, List.take_range, Nat.min_eq_left ht]

/-- The whole region of a narrowed index set. -/
theorem fieldStart_sixteen (start w : Nat) (narrow : List Nat) :
    Claims.fieldStart start w narrow 16 = start + (narrowedWidths w narrow).sum := by
  rw [fieldStart_eq _ _ _ le_rfl, List.take_of_length_le (by simp [narrowedWidths])]

/-- `30_encoding.md` R76: index field `t` of a narrowed index set. -/
theorem readFields_narrowed (blk start w : Nat) (narrow : List Nat) {t : Nat} (ht : t < 16) :
    (readFields blk start (narrowedWidths w narrow)).1[t]? =
      some ((blk >>> Claims.fieldStart start w narrow t) % 2 ^ (w - if t ∈ narrow then 1 else 0)) := by
  have hlen : t < (narrowedWidths w narrow).length := by simpa [narrowedWidths] using ht
  rw [readFields_get _ _ _ _ hlen, fieldStart_eq _ _ _ ht.le]
  simp only [narrowedWidths, List.getElem_map, List.getElem_range]

/-- Settles O15: the index sections are narrowed index sets, the primary one narrowed at the anchors of the partition
that the block names, the secondary one at texel 0. -/
theorem indexFieldPositions : Obligations.IndexFieldPositions := by
  intro m hm blk
  refine ⟨fun t ht => ?_, ?_, fun ha => ?_⟩
  · rw [unpack_idx1 _ hm, primaryWidths_eq]
    exact readFields_narrowed _ _ _ _ ht
  · rw [fieldStart_sixteen, ← primaryWidths_eq]
    exact primaryStart_add_sum _ hm
  · rw [← primaryEnd_of_secondary hm ha]
    refine ⟨fun t ht => ?_, ?_⟩
    · rw [unpack_idx2 _ hm, secondaryWidths_eq ha.ne']
      simpa [anchors] using readFields_narrowed blk.toNat (primaryEnd m) (modeDesc m).alphaIndexBits [0] ht
    · rw [fieldStart_sixteen, ← primaryEnd_add_sum hm, secondaryWidths_eq ha.ne']
      rfl

/-! ### Fields as slices of the block -/

/-- `n` fields of `w` bits side by side, from bit `start`. -/
def slices (blk : Block) (start n w : Nat) : List (BitVec w) :=
  (List.range n).map fun k => blk.extractLsb' (start + k * w) w

/-- The 16 indices of a set of `w`-bit indices narrowed at the texels `narrow`, from bit `start`: an anchor's index has
the high bit 0 (`43_index_unpack.md` R163). -/
def indexSlices (blk : Block) (start w : Nat) (narrow : List Nat) : List (BitVec w) :=
  (List.range 16).map fun t =>
    if t ∈ narrow then (blk.extractLsb' (Claims.fieldStart start w narrow t) (w - 1)).setWidth w
    else blk.extractLsb' (Claims.fieldStart start w narrow t) w

section Slices

variable (m : Nat) (blk : Block)

/-- A field of width `v` as a bit vector of width `w`. -/
theorem ofNat_field (c v w : Nat) : BitVec.ofNat w ((blk.toNat >>> c) % 2 ^ v) = (blk.extractLsb' c v).setWidth w := by
  apply BitVec.eq_of_toNat_eq
  simp

theorem ofNat_field_same (c w : Nat) : BitVec.ofNat w ((blk.toNat >>> c) % 2 ^ w) = blk.extractLsb' c w := by
  rw [ofNat_field, BitVec.setWidth_eq]

theorem toWidth_readFields_replicate (c n w : Nat) :
    toWidth w (readFields blk.toNat c (List.replicate n w)).1 = slices blk c n w := by
  refine List.ext_getElem? fun k => ?_
  rcases Nat.lt_or_ge k n with hk | hk
  · have hlen : k < (List.replicate n w).length := by simpa using hk
    simp only [toWidth, slices, List.getElem?_map, readFields_get _ _ _ _ hlen, List.getElem?_range hk, Option.map_some,
      List.take_replicate, List.sum_replicate, List.getElem_replicate, Nat.min_eq_left hk.le, smul_eq_mul,
      ofNat_field_same]
  · simp [toWidth, slices, hk]

theorem toWidth_readFields_narrowed (start w : Nat) (narrow : List Nat) :
    toWidth w (readFields blk.toNat start (narrowedWidths w narrow)).1 = indexSlices blk start w narrow := by
  refine List.ext_getElem? fun t => ?_
  rcases Nat.lt_or_ge t 16 with ht | ht
  · simp only [toWidth, indexSlices, List.getElem?_map, readFields_narrowed _ _ _ _ ht, List.getElem?_range ht,
      Option.map_some]
    split
    · rw [ofNat_field]
    · rw [Nat.sub_zero, ofNat_field_same]
  · simp [toWidth, indexSlices, narrowedWidths, ht]

theorem ofNat_unpack_part : BitVec.ofNat (modeDesc m).partitionBits (unpack m blk.toNat).1.part =
    blk.extractLsb' (m + 1) (modeDesc m).partitionBits := by
  rw [unpack_part, ofNat_field_same]

theorem ofNat_unpack_rot : BitVec.ofNat (modeDesc m).rotationBits (unpack m blk.toNat).1.rot =
    blk.extractLsb' (m + 1 + (modeDesc m).partitionBits) (modeDesc m).rotationBits := by
  rw [unpack_eq]
  exact ofNat_field_same _ _ _

theorem ofNat_unpack_isel : BitVec.ofNat (modeDesc m).indexSelectionBits (unpack m blk.toNat).1.isel =
    blk.extractLsb' (m + 1 + (modeDesc m).partitionBits + (modeDesc m).rotationBits)
      (modeDesc m).indexSelectionBits := by
  rw [unpack_eq]
  exact ofNat_field_same _ _ _

theorem toWidth_unpack_r : toWidth (modeDesc m).colorBits (unpack m blk.toNat).1.r =
    slices blk (colorStart m 0) (modeDesc m).endpointCount (modeDesc m).colorBits := by
  rw [unpack_r, colorWidths, toWidth_readFields_replicate]

theorem toWidth_unpack_g : toWidth (modeDesc m).colorBits (unpack m blk.toNat).1.g =
    slices blk (colorStart m 1) (modeDesc m).endpointCount (modeDesc m).colorBits := by
  rw [unpack_g, colorWidths, toWidth_readFields_replicate]

theorem toWidth_unpack_b : toWidth (modeDesc m).colorBits (unpack m blk.toNat).1.b =
    slices blk (colorStart m 2) (modeDesc m).endpointCount (modeDesc m).colorBits := by
  rw [unpack_b, colorWidths, toWidth_readFields_replicate]

theorem toWidth_unpack_a (h : (modeDesc m).alphaBits ≠ 0) :
    toWidth (modeDesc m).alphaBits (unpack m blk.toNat).1.a =
      slices blk (alphaStart m) (modeDesc m).endpointCount (modeDesc m).alphaBits := by
  rw [unpack_a, alphaWidths, if_neg h, toWidth_readFields_replicate]

theorem toWidth_unpack_pbits :
    toWidth 1 (unpack m blk.toNat).1.pbits = slices blk (pBitStart m) (modeDesc m).pBitCount 1 := by
  rw [unpack_pbits, pBitWidths, toWidth_readFields_replicate]

/-- The primary indices, narrowed at the anchors of the partition that the block names. -/
theorem toWidth_unpack_idx1 (hm : m < 8) {narrow : List Nat}
    (hanchors : anchors (modeDesc m).partitionCount
      (blk.extractLsb' (m + 1) (modeDesc m).partitionBits).toNat = narrow) :
    toWidth (modeDesc m).colorIndexBits (unpack m blk.toNat).1.idx1 =
      indexSlices blk (Claims.primaryStart m) (modeDesc m).colorIndexBits narrow := by
  rw [unpack_idx1 _ hm, primaryWidths_eq, unpack_part, toWidth_readFields_narrowed, ← hanchors,
    BitVec.extractLsb'_toNat]

theorem toWidth_unpack_idx2 (hm : m < 8) (h : (modeDesc m).alphaIndexBits ≠ 0) :
    toWidth (modeDesc m).alphaIndexBits (unpack m blk.toNat).1.idx2 =
      indexSlices blk (primaryEnd m) (modeDesc m).alphaIndexBits [0] := by
  rw [unpack_idx2 _ hm, secondaryWidths_eq h, toWidth_readFields_narrowed]
  rfl

/-- The mode bits of `30_encoding.md` R61 select the mode. -/
theorem decode_of_modeBits (hm : m < 8) (h : blk.extractLsb' 0 (m + 1) = BitVec.ofNat (m + 1) (2 ^ m)) :
    decode blk = Instr.ofFields m (unpack m blk.toNat).1 := by
  apply decode_of_modeSelect hm (modeSelect_of_mod hm _)
  have hbits := congrArg BitVec.toNat h
  rwa [BitVec.extractLsb'_toNat, Nat.shiftRight_zero, BitVec.toNat_ofNat,
    Nat.mod_eq_of_lt (Nat.pow_lt_pow_right Nat.one_lt_two m.lt_succ_self)] at hbits

end Slices

/-! ### The field maps

Each section of the map is the section's lemma at the mode's number: the first bits, the counts and the widths of the
map are what `colorStart`, `slices` and `indexSlices` compute from the mode descriptor. -/

/-- Settles O7: the index set is narrowed at texels 0, 3 and 15 where the partition field is 0. -/
theorem mode0FieldMap : Obligations.Mode0FieldMap := by
  intro blk h
  refine ⟨toWidth 3 (unpack 0 blk.toNat).1.idx1, (decode_of_modeBits 0 blk (by decide) h).trans ?_,
    fun hpart => ⟨rfl, ?_⟩⟩
  · exact (Instr.mode0.injEq ..).mpr ⟨ofNat_unpack_part 0 blk, toWidth_unpack_r 0 blk, toWidth_unpack_g 0 blk,
      toWidth_unpack_b 0 blk, toWidth_unpack_pbits 0 blk, rfl⟩
  · have hanchors := congrArg (fun part => anchors 3 part.toNat) hpart
    exact toWidth_unpack_idx1 0 blk (by decide) (narrow := [0, 3, 15]) hanchors

/-- Settles O8: the two P-bits are one for each subset, and the index set is narrowed at texels 0 and 15 where the
partition field is 0. -/
theorem mode1FieldMap : Obligations.Mode1FieldMap := by
  intro blk h
  refine ⟨toWidth 3 (unpack 1 blk.toNat).1.idx1, (decode_of_modeBits 1 blk (by decide) h).trans ?_,
    fun hpart => ⟨rfl, ?_⟩⟩
  · exact (Instr.mode1.injEq ..).mpr ⟨ofNat_unpack_part 1 blk, toWidth_unpack_r 1 blk, toWidth_unpack_g 1 blk,
      toWidth_unpack_b 1 blk, toWidth_unpack_pbits 1 blk, rfl⟩
  · have hanchors := congrArg (fun part => anchors 2 part.toNat) hpart
    exact toWidth_unpack_idx1 1 blk (by decide) (narrow := [0, 15]) hanchors

/-- Settles O9: behind the colours stand the indices at once, narrowed at texels 0, 3 and 15 where the partition field
is 0. -/
theorem mode2FieldMap : Obligations.Mode2FieldMap := by
  intro blk h
  refine ⟨toWidth 2 (unpack 2 blk.toNat).1.idx1, (decode_of_modeBits 2 blk (by decide) h).trans ?_,
    fun hpart => ⟨rfl, ?_⟩⟩
  · exact (Instr.mode2.injEq ..).mpr ⟨ofNat_unpack_part 2 blk, toWidth_unpack_r 2 blk, toWidth_unpack_g 2 blk,
      toWidth_unpack_b 2 blk, rfl⟩
  · have hanchors := congrArg (fun part => anchors 3 part.toNat) hpart
    exact toWidth_unpack_idx1 2 blk (by decide) (narrow := [0, 3, 15]) hanchors

/-- Settles O10: the index set is narrowed at texels 0 and 15 where the partition field is 0. -/
theorem mode3FieldMap : Obligations.Mode3FieldMap := by
  intro blk h
  refine ⟨toWidth 2 (unpack 3 blk.toNat).1.idx1, (decode_of_modeBits 3 blk (by decide) h).trans ?_,
    fun hpart => ⟨rfl, ?_⟩⟩
  · exact (Instr.mode3.injEq ..).mpr ⟨ofNat_unpack_part 3 blk, toWidth_unpack_r 3 blk, toWidth_unpack_g 3 blk,
      toWidth_unpack_b 3 blk, toWidth_unpack_pbits 3 blk, rfl⟩
  · have hanchors := congrArg (fun part => anchors 2 part.toNat) hpart
    exact toWidth_unpack_idx1 3 blk (by decide) (narrow := [0, 15]) hanchors

/-- Settles O11: with one subset both index sets are narrowed at texel 0 alone, whatever the block. -/
theorem mode4FieldMap : Obligations.Mode4FieldMap := by
  intro blk h
  refine (decode_of_modeBits 4 blk (by decide) h).trans ?_
  exact (Instr.mode4.injEq ..).mpr ⟨ofNat_unpack_rot 4 blk, ofNat_unpack_isel 4 blk, toWidth_unpack_r 4 blk,
    toWidth_unpack_g 4 blk, toWidth_unpack_b 4 blk, toWidth_unpack_a 4 blk (by decide),
    toWidth_unpack_idx1 4 blk (by decide) (narrow := [0]) rfl,
    toWidth_unpack_idx2 4 blk (by decide) (by decide)⟩

/-- Settles O12: with one subset both index sets are narrowed at texel 0 alone, whatever the block. -/
theorem mode5FieldMap : Obligations.Mode5FieldMap := by
  intro blk h
  refine (decode_of_modeBits 5 blk (by decide) h).trans ?_
  exact (Instr.mode5.injEq ..).mpr ⟨ofNat_unpack_rot 5 blk, toWidth_unpack_r 5 blk, toWidth_unpack_g 5 blk,
    toWidth_unpack_b 5 blk, toWidth_unpack_a 5 blk (by decide),
    toWidth_unpack_idx1 5 blk (by decide) (narrow := [0]) rfl,
    toWidth_unpack_idx2 5 blk (by decide) (by decide)⟩

/-- Settles O13: with one subset the index set is narrowed at texel 0 alone, whatever the block. -/
theorem mode6FieldMap : Obligations.Mode6FieldMap := by
  intro blk h
  refine (decode_of_modeBits 6 blk (by decide) h).trans ?_
  exact (Instr.mode6.injEq ..).mpr ⟨toWidth_unpack_r 6 blk, toWidth_unpack_g 6 blk, toWidth_unpack_b 6 blk,
    toWidth_unpack_a 6 blk (by decide), toWidth_unpack_pbits 6 blk,
    toWidth_unpack_idx1 6 blk (by decide) (narrow := [0]) rfl⟩

/-- Settles O14: the index set is narrowed at texels 0 and 15 where the partition field is 0. -/
theorem mode7FieldMap : Obligations.Mode7FieldMap := by
  intro blk h
  refine ⟨toWidth 2 (unpack 7 blk.toNat).1.idx1, (decode_of_modeBits 7 blk (by decide) h).trans ?_,
    fun hpart => ⟨rfl, ?_⟩⟩
  · exact (Instr.mode7.injEq ..).mpr ⟨ofNat_unpack_part 7 blk, toWidth_unpack_r 7 blk, toWidth_unpack_g 7 blk,
      toWidth_unpack_b 7 blk, toWidth_unpack_a 7 blk (by decide), toWidth_unpack_pbits 7 blk, rfl⟩
  · have hanchors := congrArg (fun part => anchors 2 part.toNat) hpart
    exact toWidth_unpack_idx1 7 blk (by decide) (narrow := [0, 15]) hanchors

end Sys2Proof
end

section
/-! The mode of a decoded block (`40_mode_select_bitstream.md` R100): the selector's answer, read on the bits of the
block. -/

namespace Sys2Proof

/-- Where no bit of the low byte is set the selector has no mode to name, and answers 8. -/
theorem modeSelect_eq_eight {x : Nat} : modeSelect x = 8 ↔ ∀ j < 8, x.testBit j = false := by
  refine ⟨fun h _ hj => testBit_of_modeSelect_eq_eight h hj, fun hlow => ?_⟩
  refine (modeSelect_le x).antisymm (Nat.le_of_not_lt fun hm => ?_)
  have hset := ((modeSelect_lt hm).1 rfl).1
  rw [hlow _ hm] at hset
  cases hset

/-- The low byte of a block is 0 exactly when none of its bits is set. -/
theorem lowByte_eq_zero {blk : Block} : blk.extractLsb' 0 8 = 0 ↔ ∀ j < 8, blk.getLsbD j = false := by
  constructor
  · intro h j hj
    have hbit := congrArg (BitVec.getLsbD · j) h
    simpa [hj] using hbit
  · intro h
    apply BitVec.eq_of_getLsbD_eq
    intro j hj
    simp [hj, h j hj]

/-- Settles O1: the mode of the decoded instruction is the selector's answer, which is `m` below 8 exactly when bit `m`
is the lowest set one, and 8 exactly when none of the bits 0 to 7 is set. -/
theorem modeIsLowestSetBit : Obligations.ModeIsLowestSetBit := by
  intro blk
  rw [decode_mode]
  constructor
  · intro m hm
    simpa only [BitVec.testBit_toNat] using modeSelect_lt (x := blk.toNat) (Nat.lt_succ_of_le hm)
  · rw [modeSelect_eq_eight, lowByte_eq_zero]
    simp only [BitVec.testBit_toNat]

end Sys2Proof
end

section
/-! The partition tables (`41_partition.md` R130). Anchor `s` of a shape lies in subset `s` (invariants 2 and 3): so no
subset is empty (invariant 4), and the anchors are as many as the subsets and all different. -/

namespace Sys2Proof.Machine

/-! ### The tables, row by row -/

/-- The digits and the mask column give the same shape. -/
theorem subsetOf_two_eq_mask_bit :
    ∀ p, p < 64 → ∀ t, t < 16 → subsetOf 2 p t = (P2Mask.getD p 0 >>> t) % 2 := by decide +kernel

theorem subsetOf_three_lt : ∀ p, p < 64 → ∀ t, t < 16 → subsetOf 3 p t < 3 := by decide +kernel

theorem subset_of_two_anchors :
    ∀ p, p < 64 → (anchors 2 p).map (subsetOf 2 p) = [0, 1] := by decide +kernel

theorem subset_of_three_anchors :
    ∀ p, p < 64 → (anchors 3 p).map (subsetOf 3 p) = [0, 1, 2] := by decide +kernel

theorem two_anchors_lt : ∀ p, p < 64 → ∀ a ∈ anchors 2 p, a < 16 := by decide +kernel

theorem three_anchors_lt : ∀ p, p < 64 → ∀ a ∈ anchors 3 p, a < 16 := by decide +kernel

/-! ### One anchor for each subset -/

section Shape

variable {ns p : Nat}

theorem subsetCount_cases (h1 : 1 ≤ ns) (h3 : ns ≤ 3) : ns = 1 ∨ ns = 2 ∨ ns = 3 := by omega

/-- The anchors lie in subsets 0, 1, … in this order. -/
theorem map_subsetOf_anchors (h1 : 1 ≤ ns) (h3 : ns ≤ 3) (hp : p < 64) :
    (anchors ns p).map (subsetOf ns p) = List.range ns := by
  obtain rfl | rfl | rfl := subsetCount_cases h1 h3
  · rfl
  · exact subset_of_two_anchors p hp
  · exact subset_of_three_anchors p hp

theorem anchors_lt (h1 : 1 ≤ ns) (h3 : ns ≤ 3) (hp : p < 64) : ∀ a ∈ anchors ns p, a < 16 := by
  obtain rfl | rfl | rfl := subsetCount_cases h1 h3
  · simp [anchors]
  · exact two_anchors_lt p hp
  · exact three_anchors_lt p hp

theorem anchors_head? (ns p : Nat) : (anchors ns p).head? = some 0 := by
  unfold anchors
  split <;> rfl

theorem length_anchors (h1 : 1 ≤ ns) (h3 : ns ≤ 3) (hp : p < 64) : (anchors ns p).length = ns := by
  simpa using congrArg List.length (map_subsetOf_anchors h1 h3 hp)

/-- Anchors of different subsets are different texels. -/
theorem nodup_anchors (h1 : 1 ≤ ns) (h3 : ns ≤ 3) (hp : p < 64) : (anchors ns p).Nodup :=
  .of_map (subsetOf ns p) (map_subsetOf_anchors h1 h3 hp ▸ List.nodup_range)

/-- No subset is empty: it holds its anchor. -/
theorem exists_texel_in_subset (h1 : 1 ≤ ns) (h3 : ns ≤ 3) (hp : p < 64) :
    ∀ n, n < ns → ∃ t, t < 16 ∧ subsetOf ns p t = n := by
  intro n hn
  have hmem : n ∈ (anchors ns p).map (subsetOf ns p) := by
    rw [map_subsetOf_anchors h1 h3 hp]
    exact List.mem_range.2 hn
  obtain ⟨a, ha, rfl⟩ := List.mem_map.1 hmem
  exact ⟨a, anchors_lt h1 h3 hp a ha, rfl⟩

end Shape

theorem subsetOf_two_lt {p t : Nat} (hp : p < 64) (ht : t < 16) : subsetOf 2 p t < 2 := by
  rw [subsetOf_two_eq_mask_bit p hp t ht]
  exact Nat.mod_lt _ Nat.two_pos

/-- Settles O16: invariants 2 and 3 say in which subset each anchor lies, and an anchor is a texel of its subset, which
is invariant 4. -/
theorem partitionTablesConsistent : Obligations.PartitionTablesConsistent := by
  intro p hp
  have h2 := subset_of_two_anchors p hp
  have h3 := subset_of_three_anchors p hp
  simp only [anchors, List.map_cons, List.map_nil, List.cons.injEq, and_true] at h2 h3
  obtain ⟨hfirst2, hA2⟩ := h2
  obtain ⟨hfirst3, hA3a, hA3b⟩ := h3
  exact ⟨fun t ht => ⟨subsetOf_two_lt hp ht, subsetOf_three_lt p hp t ht⟩, hfirst2, hfirst3, hA2, hA3a, hA3b,
    exists_texel_in_subset (by decide) (by decide) hp, exists_texel_in_subset (by decide) (by decide) hp,
    subsetOf_two_eq_mask_bit p hp⟩

/-- Settles O17: texels in different subsets are different, so the anchors are. -/
theorem anchorsAreDistinct : Obligations.AnchorsAreDistinct :=
  fun ns h1 h3 p hp => ⟨length_anchors h1 h3 hp, nodup_anchors h1 h3 hp, anchors_head? ns p, anchors_lt h1 h3 hp⟩

end Sys2Proof.Machine
end

section
/-! Bit expansion (`42_endpoints_pbits.md` R144): the byte is the value at its top plus the value's own top bits below.
The other properties of R144 and R148 are read off that sum. -/

namespace Sys2Proof.Machine

section Expansion

variable {n v : Nat}

/-- The replicated bits fit the place that the shift frees. -/
theorem replicatedBits_lt (h5 : 5 ≤ n) (h8 : n ≤ 8) (hv : v < 2 ^ n) : v / 2 ^ (2 * n - 8) < 2 ^ (8 - n) := by
  refine Nat.div_lt_of_lt_mul ?_
  rwa [← pow_add, show 2 * n - 8 + (8 - n) = n by omega]

/-- A value at the top of the byte and any low bits under it make a byte. -/
theorem topBits_add_lt {lo : Nat} (h8 : n ≤ 8) (hv : v < 2 ^ n) (hlo : lo < 2 ^ (8 - n)) : 2 ^ (8 - n) * v + lo < 256 :=
  calc 2 ^ (8 - n) * v + lo < 2 ^ (8 - n) * (v + 1) := by rw [Nat.mul_add_one]; exact Nat.add_lt_add_left hlo _
    _ ≤ 2 ^ (8 - n) * 2 ^ n := Nat.mul_le_mul_left _ hv
    _ = 256 := by rw [← pow_add, Nat.sub_add_cancel h8]; rfl

theorem expand_eight (v : Nat) : expand v 8 = v := if_pos rfl

/-- Bit expansion as arithmetic (R144): the two parts do not overlap, and the mask cuts nothing off. -/
theorem expand_eq (h5 : 5 ≤ n) (h8 : n ≤ 8) (hv : v < 2 ^ n) :
    expand v n = 2 ^ (8 - n) * v + v / 2 ^ (2 * n - 8) := by
  have hlo := replicatedBits_lt h5 h8 hv
  obtain rfl | hn := eq_or_ne n 8
  · rw [expand_eight, Nat.div_eq_of_lt hv]
    omega
  · rw [expand, if_neg hn, Nat.shiftRight_eq_div_pow, ← Nat.shiftLeft_add_eq_or_of_lt hlo, Nat.shiftLeft_eq,
      Nat.mul_comm v]
    exact (Nat.and_two_pow_sub_one_eq_mod _ 8).trans (Nat.mod_eq_of_lt (topBits_add_lt h8 hv hlo))

theorem expand_lt (h5 : 5 ≤ n) (h8 : n ≤ 8) (hv : v < 2 ^ n) : expand v n < 256 := by
  rw [expand_eq h5 h8 hv]
  exact topBits_add_lt h8 hv (replicatedBits_lt h5 h8 hv)

/-- R148 item 1: the stored bits are the top bits of the byte. -/
theorem expand_shiftRight (h5 : 5 ≤ n) (h8 : n ≤ 8) (hv : v < 2 ^ n) : expand v n >>> (8 - n) = v := by
  rw [expand_eq h5 h8 hv, Nat.shiftRight_eq_div_pow, Nat.mul_add_div (Nat.two_pow_pos _),
    Nat.div_eq_of_lt (replicatedBits_lt h5 h8 hv), Nat.add_zero]

theorem expand_zero (h5 : 5 ≤ n) (h8 : n ≤ 8) : expand 0 n = 0 := by
  rw [expand_eq h5 h8 (Nat.two_pow_pos n), Nat.zero_div, Nat.mul_zero]

theorem expand_max (h5 : 5 ≤ n) (h8 : n ≤ 8) : expand (2 ^ n - 1) n = 255 := by
  interval_cases n <;> rfl

/-- Two expanded bytes compare as the stored bits at their top do. -/
theorem expand_strictMono {u : Nat} (h5 : 5 ≤ n) (h8 : n ≤ 8) (huv : u < v) (hv : v < 2 ^ n) :
    expand u n < expand v n := by
  refine Nat.lt_of_div_lt_div (c := 2 ^ (8 - n)) ?_
  rwa [← Nat.shiftRight_eq_div_pow, ← Nat.shiftRight_eq_div_pow, expand_shiftRight h5 h8 (huv.trans hv),
    expand_shiftRight h5 h8 hv]

end Expansion

/-- A stored 7-bit channel and its P-bit make 8 bits (R145). -/
theorem joinedWidth_seven {D : ModeDesc} (h : D.pBitMode = .perEndpoint) : joinedWidth D 7 = 8 := by
  rw [joinedWidth, h]

/-- With 8 joined bits there is nothing to expand: the endpoint channel is the stored value and its P-bit (R148). -/
theorem expandChannel_seven {D : ModeDesc} (h : D.pBitMode = .perEndpoint) {r p : Nat} (hr : r < 128) (hp : p < 2) :
    (expandChannel D 7 r (some p)).toNat = (r <<< 1 ||| p) := by
  have hlt : r <<< 1 ||| p < 2 ^ 8 := by
    rw [← Nat.shiftLeft_add_eq_or_of_lt (i := 1) hp, Nat.shiftLeft_eq]
    omega
  rw [expandChannel, joinedWidth_seven h, expand_eight, joinPBit, BitVec.toNat_ofNat, Nat.mod_eq_of_lt hlt]

/-- Settles O18: the byte's top bits are the stored ones, and at 7 bits it is the byte of R148 item 3. -/
theorem expansionKeepsStoredBits : Obligations.ExpansionKeepsStoredBits := by
  refine ⟨fun n h5 h8 v hv => ⟨expand_lt h5 h8 hv, expand_shiftRight h5 h8 hv⟩, expand_eight, fun v hv => ?_, ?_⟩
  · have hlo : v / 2 ^ 6 < 2 ^ 1 := replicatedBits_lt (n := 7) (by decide) (by decide) hv
    rw [expand_eq (by decide) (by decide) hv, Nat.shiftRight_eq_div_pow, ← Nat.shiftLeft_add_eq_or_of_lt hlo,
      Nat.shiftLeft_eq, Nat.mul_comm v]
  · rintro m (rfl | rfl) r hr p hp <;> exact expandChannel_seven rfl hr hp

/-- Settles O19: each clause at a fixed width is `expand_eq` there. -/
theorem expansionIsStrictlyIncreasing : Obligations.ExpansionIsStrictlyIncreasing :=
  ⟨fun _ h5 h8 => ⟨expand_zero h5 h8, expand_max h5 h8, fun _ _ => expand_strictMono h5 h8⟩,
    fun _ => expand_eq (n := 5) (by decide) (by decide), fun _ => expand_eq (n := 6) (by decide) (by decide),
    fun _ => expand_eq (n := 7) (by decide) (by decide), fun v _ => expand_eight v⟩

end Sys2Proof.Machine
end

section
/-! The opaque alpha of modes 0 to 3 (`42_endpoints_pbits.md` R146): no alpha is stored, so every endpoint has alpha 255; a
blend of two equal channels is that channel (`44_interpolate.md` R182), and these modes rotate nothing
(`30_encoding.md` R63). -/

namespace Sys2Proof.Machine

/-- Only modes 4 to 7 store alpha (R140). -/
theorem alphaBits_eq_zero {m : Nat} (hm : m < 4) : (modeDesc m).alphaBits = 0 := by
  interval_cases m <;> rfl

theorem endpoint_a_of_no_alpha {D : ModeDesc} (h : D.alphaBits = 0) (f : Fields) (e : Nat) : (endpoint D f e).a = 255 :=
  if_pos h

/-- Settles O20: the two tables of R145 row by row, and R146. -/
theorem effectivePrecision : Obligations.EffectivePrecision :=
  ⟨rfl, rfl, fun _ hm => endpoint_a_of_no_alpha (alphaBits_eq_zero hm)⟩

/-- A table lookup that answers 0 outside the table stays below a bound of the table. -/
theorem getD_zero_le {l : List Nat} {b : Nat} (h : ∀ x ∈ l, x ≤ b) (i : Nat) : l.getD i 0 ≤ b := by
  obtain hi | hi := Nat.lt_or_ge i l.length
  · rw [List.getD_eq_getElem _ _ hi]
    exact h _ (List.getElem_mem hi)
  · rw [List.getD_eq_default _ _ hi]
    exact Nat.zero_le b

/-- A weight is at most 64 (`44_interpolate.md` R180). -/
theorem weight_le (i : IndexRole) : weight i ≤ 64 := by
  unfold weight
  split
  · exact getD_zero_le (by decide) _
  · exact getD_zero_le (by decide) _
  · exact getD_zero_le (by decide) _
  · exact Nat.zero_le _

/-- A blend of equal channels is that channel (`44_interpolate.md` R182): the two weights add up to 64. -/
theorem interp_self (e : Byte) {w : Nat} (hw : w ≤ 64) : interp e e w = e := by
  have hsum : ((64 - w) * e.toNat + w * e.toNat + 32) >>> 6 = e.toNat := by
    rw [← Nat.add_mul, Nat.sub_add_cancel hw, Nat.shiftRight_eq_div_pow]
    omega
  rw [interp, hsum, BitVec.ofNat_toNat, BitVec.setWidth_eq]

theorem blendedTexel_a_of_no_alpha {D : ModeDesc} (h : D.alphaBits = 0) (f : Fields) (t : Nat) :
    (blendedTexel D f t).a = 255 := by
  simp only [blendedTexel, blend, endpoint_a_of_no_alpha h]
  exact interp_self _ (weight_le _)

/-- A tile without stored alpha and without rotation is opaque. -/
theorem decodeTile_a_of_no_alpha {D : ModeDesc} {f : Fields} (h : D.alphaBits = 0) (hrot : f.rot = 0) :
    ∀ x ∈ decodeTile D f, x.a = 255 := by
  intro x hx
  obtain ⟨t, -, rfl⟩ := List.mem_map.1 hx
  rw [hrot]
  exact blendedTexel_a_of_no_alpha h f t

/-- Outside the reserved mode a tile comes from the stages of `46_block_modes.md` R210. -/
theorem tile_eq_decodeTile {i : Instr} (hi : i.mode ≠ 8) : i.tile = decodeTile (modeDesc i.mode) i.fields := by
  cases i with
  | invalid rest => exact absurd rfl hi
  | _ => rfl

/-- Only modes 4 and 5 have a rotation field (`30_encoding.md` R63). -/
theorem fields_rot_of_no_rotation {i : Instr} (h : (modeDesc i.mode).rotationBits = 0) : i.fields.rot = 0 := by
  cases i with
  | mode4 | mode5 => cases h
  | _ => rfl

theorem rotationBits_eq_zero {m : Nat} (hm : m < 4) : (modeDesc m).rotationBits = 0 := by
  interval_cases m <;> rfl

/-- Settles O23: the decoded instruction is of a mode with neither alpha nor rotation. -/
theorem alphaIs255WithoutAlphaFields : Obligations.AlphaIs255WithoutAlphaFields := by
  intro blk hmode
  have hm : (decode blk).mode < 4 := Nat.lt_succ_of_le hmode
  rw [decodeBlock, tile_eq_decodeTile (by omega)]
  exact decodeTile_a_of_no_alpha (alphaBits_eq_zero hm) (fields_rot_of_no_rotation (rotationBits_eq_zero hm))

end Sys2Proof.Machine
end

section
/-! The weight tables and the interpolation formula (`44_interpolate.md` R180, R182): each table is a sorted list, and the
weighted sum lies between 64 times the smaller channel and 64 times the larger one, so rounding it cannot leave that range. -/

namespace Sys2Proof.Machine

/-- A lookup in a strictly increasing table is strictly increasing up to the table's end. -/
theorem getD_lt_getD {l : List Nat} (h : l.Pairwise (· < ·)) {i j : Nat} (hij : i < j) (hj : j < l.length) :
    l.getD i 0 < l.getD j 0 := by
  rw [List.getD_eq_getElem _ _ (hij.trans hj), List.getD_eq_getElem _ _ hj]
  exact List.pairwise_iff_getElem.1 h i j _ hj hij

/-- Settles O21: in each width the weights are the entries of a sorted table with 2^b rows. -/
theorem weightTablesRise : Obligations.WeightTablesRise := by
  refine ⟨rfl, rfl, rfl, fun b h2 h4 => ?_⟩
  obtain rfl | rfl | rfl : b = 2 ∨ b = 3 ∨ b = 4 := by omega
  · exact ⟨rfl, rfl, fun _ _ => getD_lt_getD (l := W2) (by decide)⟩
  · exact ⟨rfl, rfl, fun _ _ => getD_lt_getD (l := W3) (by decide)⟩
  · exact ⟨rfl, rfl, fun _ _ => getD_lt_getD (l := W4) (by decide)⟩

section Weighted

variable {w : Nat} (hw : w ≤ 64)

include hw

/-- The two weights of a blend add up to 64. -/
theorem weights_mul (c : Nat) : (64 - w) * c + w * c = 64 * c := by rw [← Nat.add_mul, Nat.sub_add_cancel hw]

theorem weighted_le {a b c : Nat} (ha : a ≤ c) (hb : b ≤ c) : (64 - w) * a + w * b ≤ 64 * c :=
  (Nat.add_le_add (Nat.mul_le_mul_left _ ha) (Nat.mul_le_mul_left _ hb)).trans_eq (weights_mul hw c)

theorem le_weighted {a b c : Nat} (ha : c ≤ a) (hb : c ≤ b) : 64 * c ≤ (64 - w) * a + w * b :=
  (weights_mul hw c).symm.trans_le (Nat.add_le_add (Nat.mul_le_mul_left _ ha) (Nat.mul_le_mul_left _ hb))

variable (e0 e1 : Byte)

/-- The intermediate sum of R182 fits 14 bits. -/
theorem interpSum_le : (64 - w) * e0.toNat + w * e1.toNat + 32 ≤ 16352 :=
  Nat.add_le_add_right (weighted_le hw (Nat.le_of_lt_succ e0.isLt) (Nat.le_of_lt_succ e1.isLt)) 32

/-- Narrowing to 8 bits cuts nothing off the blend. -/
theorem interp_toNat : (interp e0 e1 w).toNat = ((64 - w) * e0.toNat + w * e1.toNat + 32) / 64 := by
  have hsum := interpSum_le hw e0 e1
  rw [interp, BitVec.toNat_ofNat, Nat.shiftRight_eq_div_pow]
  exact Nat.mod_eq_of_lt (by omega)

theorem interp_swap : interp e0 e1 w = interp e1 e0 (64 - w) := by
  rw [interp, interp, Nat.sub_sub_self hw, Nat.add_comm (w * e1.toNat)]

theorem min_le_interp : min e0.toNat e1.toNat ≤ (interp e0 e1 w).toNat := by
  have hsum := le_weighted hw (Nat.min_le_left e0.toNat e1.toNat) (Nat.min_le_right e0.toNat e1.toNat)
  rw [interp_toNat hw]
  omega

theorem interp_le_max : (interp e0 e1 w).toNat ≤ max e0.toNat e1.toNat := by
  have hsum := weighted_le hw (Nat.le_max_left e0.toNat e1.toNat) (Nat.le_max_right e0.toNat e1.toNat)
  rw [interp_toNat hw]
  omega

end Weighted

/-- Weight 0 takes the first endpoint (R184 item 4). -/
@[simp] theorem interp_zero (e0 e1 : Byte) : interp e0 e1 0 = e0 := by
  refine BitVec.eq_of_toNat_eq ?_
  rw [interp_toNat (Nat.zero_le 64)]
  omega

/-- Weight 64 takes the second endpoint (R184 item 4). -/
@[simp] theorem interp_sixtyFour (e0 e1 : Byte) : interp e0 e1 64 = e1 := by
  rw [interp_swap le_rfl, Nat.sub_self, interp_zero]

/-- Settles O22: the exact quotient, its corner cases and its range, clause by clause. -/
theorem interpolationProperties : Obligations.InterpolationProperties := fun e0 e1 _ hw =>
  ⟨interp_toNat hw e0 e1, interpSum_le hw e0 e1, interp_zero e0 e1, interp_sixtyFour e0 e1, interp_self e0 hw,
    interp_swap hw e0 e1, min_le_interp hw e0 e1, interp_le_max hw e0 e1⟩

end Sys2Proof.Machine
end

section
/-! What one texel of a tile comes from (`44_interpolate.md` R184): the two endpoints of its subset and its own indices. -/

namespace Sys2Proof.Machine

/-- Texel `t` of a tile is the blend of its own operands, rotated (`46_block_modes.md` R210). -/
theorem getElem?_decodeTile (D : ModeDesc) (f : Fields) {t : Nat} (ht : t < 16) :
    (decodeTile D f)[t]? = some (rotate f.rot (blendedTexel D f t)) := by
  rw [decodeTile, List.getElem?_map, List.getElem?_range ht, Option.map_some]

/-- Two equal endpoints blend to their colour, whatever the weights are. -/
theorem blend_self (C : Texel) {wC wA : Nat} (hC : wC ≤ 64) (hA : wA ≤ 64) : blend C C wC wA = C := by
  simp only [blend, interp_self _ hC, interp_self _ hA]

/-- R184 item 1, before rotation. -/
theorem blendedTexel_of_equal_endpoints {D : ModeDesc} {f : Fields} {t : Nat} {C : Texel}
    (h0 : endpoint D f (2 * subsetOf D.partitionCount f.part t) = C)
    (h1 : endpoint D f (2 * subsetOf D.partitionCount f.part t + 1) = C) : blendedTexel D f t = C := by
  simp only [blendedTexel, h0, h1]
  exact blend_self C (weight_le _) (weight_le _)

/-- Settles O24: the blend is the common colour, and the tile holds it rotated. -/
theorem equalEndpointsGiveTheirColor : Obligations.EqualEndpointsGiveTheirColor := by
  intro i hmode t ht C D n h0 h1
  rw [tile_eq_decodeTile hmode.ne, getElem?_decodeTile _ _ ht, blendedTexel_of_equal_endpoints h0 h1]

section Agreement

variable {D : ModeDesc} {f f' : Fields}

/-- Two blocks store the same channels and the same P-bit for endpoint `e`. -/
def SameEndpointFields (D : ModeDesc) (f f' : Fields) (e : Nat) : Prop :=
  f.r[e]? = f'.r[e]? ∧ f.g[e]? = f'.g[e]? ∧ f.b[e]? = f'.b[e]? ∧ f.a[e]? = f'.a[e]? ∧ pBitOf D f e = pBitOf D f' e

/-- An endpoint is expanded from its own stored channels and its P-bit (`42_endpoints_pbits.md` R143 to R146). -/
theorem endpoint_congr {e : Nat} (h : SameEndpointFields D f f' e) : endpoint D f e = endpoint D f' e := by
  obtain ⟨hr, hg, hb, ha, hp⟩ := h
  simp only [endpoint, List.getD_eq_getElem?_getD, hr, hg, hb, ha, hp]

variable {t : Nat}

theorem primaryIndex_congr (h1 : f.idx1[t]? = f'.idx1[t]?) : primaryIndex D f t = primaryIndex D f' t := by
  simp only [primaryIndex, List.getD_eq_getElem?_getD, h1]

theorem secondaryIndex_congr (h2 : f.idx2[t]? = f'.idx2[t]?) : secondaryIndex D f t = secondaryIndex D f' t := by
  simp only [secondaryIndex, List.getD_eq_getElem?_getD, h2]

variable (hisel : f.isel = f'.isel) (h1 : f.idx1[t]? = f'.idx1[t]?) (h2 : f.idx2[t]? = f'.idx2[t]?)

include hisel h1 h2

theorem colorIndex_congr : colorIndex D f t = colorIndex D f' t := by
  rw [colorIndex, colorIndex, hisel, primaryIndex_congr h1, secondaryIndex_congr h2]

theorem alphaIndex_congr : alphaIndex D f t = alphaIndex D f' t := by
  rw [alphaIndex, alphaIndex, hisel, primaryIndex_congr h1, secondaryIndex_congr h2]

/-- R184 item 3, before rotation: both blends take equal endpoints and equal weights. -/
theorem blendedTexel_congr (hpart : f.part = f'.part)
    (hends : ∀ e, e / 2 = subsetOf D.partitionCount f.part t → SameEndpointFields D f f' e) :
    blendedTexel D f t = blendedTexel D f' t := by
  have he0 := endpoint_congr (hends (2 * subsetOf D.partitionCount f.part t) (by omega))
  have he1 := endpoint_congr (hends (2 * subsetOf D.partitionCount f.part t + 1) (by omega))
  simp only [blendedTexel, ← hpart, he0, he1, colorIndex_congr hisel h1 h2, alphaIndex_congr hisel h1 h2]

end Agreement

/-- Settles O26: equal blends under the same rotation. -/
theorem texelDependsOnOwnSubset : Obligations.TexelDependsOnOwnSubset := by
  intro m _ f f' t ht hpart hrot hisel h1 h2 hends
  rw [getElem?_decodeTile _ f ht, getElem?_decodeTile _ f' ht, hrot, blendedTexel_congr hisel h1 h2 hpart hends]

end Sys2Proof.Machine
end

section
/-! The rotation field (`45_rotation_output.md` R190): it stands by itself between the mode bits and everything else that
modes 4 and 5 store, so that clearing its two bits in the block clears this one field and leaves the blend of every texel
as it was. -/

namespace Sys2Proof

open Sys2Proof.Machine

/-! ### A block with its rotation bits cleared -/

/-- The block with its two bits from `lo` cleared. -/
def clearRotation (lo : Nat) (blk : Block) : Block := blk &&& ~~~(3#128 <<< lo)

/-- Bit `j` of the cleared block. -/
theorem testBit_clearRotation (lo : Nat) (blk : Block) (j : Nat) :
    (clearRotation lo blk).toNat.testBit j = (blk.toNat.testBit j && !decide (lo ≤ j ∧ j < lo + 2)) := by
  have hthree : Nat.testBit 3 (j - lo) = decide (j - lo < 2) := Nat.testBit_two_pow_sub_one 2 _
  have hfield : (!decide (j < lo) && decide (j - lo < 2)) = decide (lo ≤ j ∧ j < lo + 2) := by
    rw [← decide_not, ← Bool.decide_and]
    exact decide_eq_decide.2 (by omega)
  rcases Nat.lt_or_ge j 128 with hj | hj
  · have hk : j - lo < 128 := by omega
    rw [clearRotation, BitVec.testBit_toNat, BitVec.getLsbD_and, BitVec.getLsbD_not, BitVec.getLsbD_shiftLeft,
      BitVec.getLsbD_ofNat, hthree, ← hfield, BitVec.testBit_toNat]
    simp only [hj, hk, decide_true, Bool.true_and]
  · simp [BitVec.testBit_toNat, BitVec.getLsbD_of_ge _ _ hj]

/-- The bits above are kept. -/
theorem clearRotation_shiftRight {lo c : Nat} (h : lo + 2 ≤ c) (blk : Block) :
    (clearRotation lo blk).toNat >>> c = blk.toNat >>> c := by
  apply Nat.eq_of_testBit_eq
  intro j
  have hout : ¬ (lo ≤ c + j ∧ c + j < lo + 2) := by omega
  simp [testBit_clearRotation, hout]

/-- The two bits themselves read as rotation code 0. -/
theorem clearRotation_field (lo : Nat) (blk : Block) : ((clearRotation lo blk).toNat >>> lo) % 2 ^ 2 = 0 := by
  apply Nat.eq_of_testBit_eq
  intro j
  rw [Nat.testBit_mod_two_pow, Nat.testBit_shiftRight, testBit_clearRotation]
  by_cases hj : j < 2 <;> simp [hj]

/-- The mode bits stand below and are kept too. -/
theorem modeSelect_clearRotation {lo m : Nat} {blk : Block} (hm : m < 8) (hlo : m < lo) (h : modeSelect blk.toNat = m) :
    modeSelect (clearRotation lo blk).toNat = m := by
  obtain ⟨hset, hlow⟩ := (modeSelect_lt hm).1 h
  refine (modeSelect_lt hm).2 ⟨?_, fun j hj => ?_⟩
  · simp [testBit_clearRotation, hset, hlo]
  · simp [testBit_clearRotation, hlow j hj]

/-! ### Reading a block -/

/-- A section depends only on the bits from its start. -/
theorem readFields_congr {x y c : Nat} (h : x >>> c = y >>> c) (ws : List Nat) :
    (readFields x c ws).1 = (readFields y c ws).1 := by
  induction ws generalizing c with
  | nil => rfl
  | cons w ws ih =>
    have hrest : x >>> (c + w) = y >>> (c + w) := by rw [Nat.shiftRight_add, h, ← Nat.shiftRight_add]
    simp only [readFields_cons, h, ih hrest]

/-- The tile of a block whose mode is below 8 comes from the fields that were read. -/
theorem decodeBlock_of_modeSelect {blk : Block} {m : Nat} (hm : m < 8) (h : modeSelect blk.toNat = m) :
    decodeBlock blk = decodeTile (modeDesc m) (unpack m blk.toNat).1 := by
  have hmode := ofFields_mode m hm (unpack m blk.toNat).1
  rw [decodeBlock, decode_of_modeSelect hm h, tile_eq_decodeTile (hmode.trans_ne hm.ne), hmode,
    fields_ofFields hm (unpack_fits _ _)]

theorem unpack_rot (m blk : Nat) : (unpack m blk).1.rot =
    (blk >>> (m + 1 + (modeDesc m).partitionBits)) % 2 ^ (modeDesc m).rotationBits := by
  rw [unpack_eq]

/-! ### The texels of both blocks -/

section RotatedMode

variable {m : Nat} (hpart : (modeDesc m).partitionBits = 0) (hrot : (modeDesc m).rotationBits = 2)

include hpart hrot

/-- The rotation code is what stands right behind the mode bits. -/
theorem unpack_rot_eq (blk : Block) : (unpack m blk.toNat).1.rot = (blk.extractLsb' (m + 1) 2).toNat := by
  rw [unpack_rot, hpart, hrot, BitVec.extractLsb'_toNat, Nat.add_zero]

/-- "Otherwise the same fields": every other section is read from above the rotation bits. -/
theorem unpack_clearRotation (blk : Block) :
    (unpack m (clearRotation (m + 1) blk).toNat).1 = { (unpack m blk.toNat).1 with rot := 0 } := by
  have habove {c : Nat} (hc : m + 1 + 2 ≤ c) := clearRotation_shiftRight hc blk
  have hcode := clearRotation_field (m + 1) blk
  simp only [unpack_eq, hpart, hrot, Nat.add_zero, pow_zero, Nat.mod_one, hcode, habove le_rfl]
  congr 1
  all_goals exact readFields_congr (habove (by omega)) _

variable {blk : Block} {t : Nat} (hm : m < 8) (hsel : modeSelect blk.toNat = m) (ht : t < 16)

include hm hsel ht

theorem getElem?_decodeBlock_rotated : (decodeBlock blk)[t]? =
    some (rotate (blk.extractLsb' (m + 1) 2).toNat (blendedTexel (modeDesc m) (unpack m blk.toNat).1 t)) := by
  rw [decodeBlock_of_modeSelect hm hsel, getElem?_decodeTile _ _ ht, unpack_rot_eq hpart hrot]

/-- A blend does not read the rotation, so the cleared block shows the other block's blend. -/
theorem getElem?_decodeBlock_clearRotation : (decodeBlock (clearRotation (m + 1) blk))[t]? =
    some (blendedTexel (modeDesc m) (unpack m blk.toNat).1 t) := by
  rw [decodeBlock_of_modeSelect hm (modeSelect_clearRotation hm m.lt_succ_self hsel), getElem?_decodeTile _ _ ht,
    unpack_clearRotation hpart hrot]
  rfl

end RotatedMode

/-- The two modes with a rotation field store no partition and so have the field right behind the mode bits
(`30_encoding.md` R63, R72, R73). -/
theorem exists_rotatedMode {blk : Block} {lo : Nat}
    (h : ((decode blk).mode = 4 ∧ lo = 5) ∨ ((decode blk).mode = 5 ∧ lo = 6)) :
    ∃ m, m < 8 ∧ (modeDesc m).partitionBits = 0 ∧ (modeDesc m).rotationBits = 2 ∧ modeSelect blk.toNat = m ∧
      lo = m + 1 := by
  rw [decode_mode] at h
  obtain ⟨hsel, rfl⟩ | ⟨hsel, rfl⟩ := h
  · exact ⟨4, by decide, rfl, rfl, hsel, rfl⟩
  · exact ⟨5, by decide, rfl, rfl, hsel, rfl⟩

/-- Settles O25: both blocks blend texel `t` to the same colour; the cleared block shows it as it is, and the block itself
shows it rotated by its code. -/
theorem rotationOnlySwapsChannels : Obligations.RotationOnlySwapsChannels := by
  refine ⟨fun x => ⟨rfl, rfl, rfl, rfl⟩, fun blk lo hmode t ht => ?_⟩
  obtain ⟨m, hm, hpart, hrot, hsel, rfl⟩ := exists_rotatedMode hmode
  have hx := getElem?_decodeBlock_clearRotation hpart hrot hm hsel ht
  have hy := getElem?_decodeBlock_rotated hpart hrot hm hsel ht
  refine ⟨_, _, hx, hy, fun hcode => ?_, fun hcode => ?_, fun hcode => ?_, fun hcode => ?_⟩
  all_goals
    rw [hcode]
    exact ⟨rfl, rfl, rfl, rfl⟩

end Sys2Proof
end

section
/-! The fallback tile of the reserved mode (`45_rotation_output.md` R193): a low byte of 0 selects no mode, and a number
whose bytes are all 0 is 0. -/

namespace Sys2Proof

open Sys2Proof.Machine

/-- Where no mode bit is set the block is INVALID, whatever its other bits are (`30_encoding.md` R79). -/
theorem decode_of_lowByte_zero {blk : Block} (h : blk.extractLsb' 0 8 = 0) :
    decode blk = .invalid (blk.extractLsb' 8 120) := by
  have hsel : modeSelect blk.toNat = 8 := by
    rw [modeSelect_eq_eight]
    simpa only [BitVec.testBit_toNat] using lowByte_eq_zero.1 h
  rw [decode, hsel, if_pos rfl]

theorem bytesToNat_replicate_zero (n : Nat) : bytesToNat (List.replicate n 0) = 0 := by
  induction n with
  | zero => rfl
  | succ n ih => rw [List.replicate_succ, bytesToNat, ih]; rfl

/-- All 64 bytes of the fallback tile are 0, and so are the 512 bits of the port. -/
theorem formatTile_fallbackTile : formatTile fallbackTile = 0 := by
  have hbytes : tileBytes fallbackTile = List.replicate 64 0 := rfl
  rw [formatTile, hbytes, bytesToNat_replicate_zero]
  rfl

/-- Settles O27: the block decodes to INVALID, whose tile is the fallback. -/
theorem reservedModeGivesFallback : Obligations.ReservedModeGivesFallback := by
  intro blk h
  have htile : decodeBlock blk = fallbackTile := by rw [decodeBlock, decode_of_lowByte_zero h, Instr.tile]
  rw [htile]
  exact ⟨rfl, formatTile_fallbackTile⟩

end Sys2Proof
end

section
/-! The output port (`45_rotation_output.md` R192): the tile is 64 bytes, four for each texel in channel order, and the
port is the number with these bytes, so that byte `k` stands on its bits from `8k`. -/

namespace Sys2Proof.Machine

/-- Byte `k` of a number written in bytes, least significant first. -/
theorem byte_bytesToNat {bs : List Byte} {k : Nat} {b : Byte} (h : bs[k]? = some b) :
    BitVec.ofNat 8 (bytesToNat bs >>> (8 * k)) = b := by
  induction bs generalizing k with
  | nil => cases h
  | cons c bs ih =>
    cases k with
    | zero =>
      obtain rfl : c = b := by simpa using h
      apply BitVec.eq_of_toNat_eq
      rw [Nat.mul_zero, Nat.shiftRight_zero, bytesToNat, BitVec.toNat_ofNat]
      omega
    | succ k =>
      have hnext : bytesToNat (c :: bs) >>> 8 = bytesToNat bs := by
        rw [bytesToNat, Nat.shiftRight_eq_div_pow]
        omega
      rw [Nat.mul_succ, Nat.add_comm, Nat.shiftRight_add, hnext]
      exact ih h

/-- A slice that lies within the width of a word is cut from the number itself. -/
theorem extractLsb'_ofNat {w start len : Nat} (h : start + len ≤ w) (n : Nat) :
    (BitVec.ofNat w n).extractLsb' start len = BitVec.ofNat len (n >>> start) := by
  apply BitVec.eq_of_getLsbD_eq
  intro j hj
  have hin : start + j < w := by omega
  rw [BitVec.getLsbD_extractLsb', BitVec.getLsbD_ofNat, BitVec.getLsbD_ofNat, Nat.testBit_shiftRight]
  simp [hj, hin]

/-- Byte `k` of the tile stands on the port's bits from `8k`. -/
theorem extractLsb'_formatTile {T : Tile} {k : Nat} {b : Byte} (hk : k < 64) (h : (tileBytes T)[k]? = some b) :
    (formatTile T).extractLsb' (8 * k) 8 = b := by
  rw [formatTile, extractLsb'_ofNat (by omega), byte_bytesToNat h]

theorem tileBytes_cons (x : Texel) (T : Tile) : tileBytes (x :: T) = texelBytes x ++ tileBytes T := rfl

/-- Byte `4t + c` of the tile is byte `c` of texel `t`. -/
theorem getElem?_tileBytes {T : Tile} {t c : Nat} {x : Texel} (h : T[t]? = some x) (hc : c < 4) :
    (tileBytes T)[4 * t + c]? = (texelBytes x)[c]? := by
  induction T generalizing t with
  | nil => cases h
  | cons y T ih =>
    have hlen : (texelBytes y).length = 4 := rfl
    rw [tileBytes_cons]
    cases t with
    | zero =>
      obtain rfl : y = x := by simpa using h
      rw [Nat.mul_zero, Nat.zero_add, List.getElem?_append_left (hlen ▸ hc)]
    | succ t =>
      have hnext : 4 * (t + 1) + c - 4 = 4 * t + c := by omega
      rw [List.getElem?_append_right (by omega), hlen, hnext]
      exact ih h

/-- Settles O28: byte `c` of a texel is its channel `c`, so that each channel is a byte of the tile, and each byte of the
tile is eight bits of the port. -/
theorem outputPortLayout : Obligations.OutputPortLayout := by
  intro T hlen t x hx
  have ht : t < 16 := hlen ▸ (List.getElem?_eq_some_iff.1 hx).1
  have hbyte (c : Nat) (hc : c < 4) := getElem?_tileBytes hx hc
  have hport (c : Nat) (hc : c < 4) {b : Byte} (hb : (texelBytes x)[c]? = some b) :
      (formatTile T).extractLsb' (32 * t + 8 * c) 8 = b := by
    have hpos : 32 * t + 8 * c = 8 * (4 * t + c) := by omega
    rw [hpos]
    exact extractLsb'_formatTile (by omega) ((hbyte c hc).trans hb)
  exact ⟨⟨hport 0 (by decide) rfl, hport 1 (by decide) rfl, hport 2 (by decide) rfl, hport 3 (by decide) rfl⟩,
    hbyte 0 (by decide), hbyte 1 (by decide), hbyte 2 (by decide), hbyte 3 (by decide)⟩

end Sys2Proof.Machine
end

section
/-! The nine instructions (`46_block_modes.md` R211 to R219). With `in_ready` = 1 each is the acceptance of its block with its
tile. The tiles of the eight modes are one computation (R210) on bit-vector fields, which the mode's descriptor steers; each
mode's claim is what that computation says at its row of `MODE` (`30_encoding.md` R63). -/

namespace Sys2Proof.Machine

/-- With `in_ready` = 1 the block enters `Q` with its tile, and nothing else changes (`20_memory.md` R47). -/
theorem exec_of_inReady (i : Instr) {s : State} (hs : s.inReady = true) :
    exec i s = .next (Claims.afterAccept s (encode i) i.tile) := by
  rw [exec_eq, if_pos hs]
  rfl

theorem length_decodeTile (D : ModeDesc) (f : Fields) : (decodeTile D f).length = 16 := by
  rw [decodeTile, List.length_map, List.length_range]

/-- A missing field reads as 0, as a bit vector and as a number. -/
theorem getD_map_toNat {w : Nat} (l : List (BitVec w)) (k : Nat) : (l.map (·.toNat)).getD k 0 = (l.getD k 0).toNat :=
  List.getD_map l 0 (·.toNat)

/-- The stored fields of a block as bit vectors of the widths that its descriptor gives them (`30_encoding.md` R63); a field
the mode does not have is left out. -/
structure StoredFields (D : ModeDesc) where
  part : Nat := 0
  rot : Nat := 0
  isel : Nat := 0
  r : List (BitVec D.colorBits)
  g : List (BitVec D.colorBits)
  b : List (BitVec D.colorBits)
  a : List (BitVec D.alphaBits) := []
  pbits : List (BitVec 1) := []
  idx1 : List (BitVec D.colorIndexBits)
  idx2 : List (BitVec D.alphaIndexBits) := []

namespace StoredFields

variable {D : ModeDesc} (x : StoredFields D) (t : Nat)

/-- The same fields as unsigned integers, as the decode stages take them. -/
def toFields : Fields where
  part := x.part
  rot := x.rot
  isel := x.isel
  r := x.r.map (·.toNat)
  g := x.g.map (·.toNat)
  b := x.b.map (·.toNat)
  a := x.a.map (·.toNat)
  pbits := x.pbits.map (·.toNat)
  idx1 := x.idx1.map (·.toNat)
  idx2 := x.idx2.map (·.toNat)

/-! ### Endpoints -/

/-- The expanded value of the channel stored in `l` of endpoint `e`, an endpoint of subset `n`
(`42_endpoints_pbits.md` R142 to R144). -/
def channel {w : Nat} (l : List (BitVec w)) (n e : Nat) : Byte :=
  match D.pBitMode with
  | .none => Claims.plain l e
  | .shared => Claims.joined l x.pbits (w + 1) e n
  | .perEndpoint => Claims.joined l x.pbits (w + 1) e e

/-- The P-bit of an endpoint is joined to each of its channels, in each of the three P-bit modes. -/
theorem expandChannel_toFields {n e : Nat} (he : e / 2 = n) {w : Nat} (l : List (BitVec w)) :
    expandChannel D w ((l.map (·.toNat)).getD e 0) (pBitOf D x.toFields e) = x.channel l n e := by
  rw [getD_map_toNat]
  unfold expandChannel pBitOf joinedWidth channel
  cases D.pBitMode with
  | none => rfl
  | shared => simp only [toFields, getD_map_toNat, he, joinPBit, Claims.joined]
  | perEndpoint => simp only [toFields, getD_map_toNat, joinPBit, Claims.joined]

/-- Endpoint `e` of subset `n`: alpha is 255 where none is stored (`42_endpoints_pbits.md` R146). -/
theorem endpoint_toFields {n e : Nat} (he : e / 2 = n) : endpoint D x.toFields e =
    { r := x.channel x.r n e, g := x.channel x.g n e, b := x.channel x.b n e
      a := if D.alphaBits = 0 then 255 else x.channel x.a n e } := by
  simp only [← x.expandChannel_toFields he]
  rfl

/-! ### Indices -/

/-- The index of texel `t` in the primary set (`43_index_unpack.md` R160). -/
def primary : IndexRole := ⟨(x.idx1.getD t 0).toNat, D.colorIndexBits⟩

/-- The index of texel `t` in the secondary set (`43_index_unpack.md` R161). -/
def secondary : IndexRole := ⟨(x.idx2.getD t 0).toNat, D.alphaIndexBits⟩

theorem primaryIndex_toFields : primaryIndex D x.toFields t = x.primary t := by
  rw [primaryIndex, toFields, getD_map_toNat, primary]

theorem secondaryIndex_toFields : secondaryIndex D x.toFields t = x.secondary t := by
  rw [secondaryIndex, toFields, getD_map_toNat, secondary]

/-- The index that drives the colour of texel `t` (`43_index_unpack.md` R162). -/
def colorRole : IndexRole :=
  if D.alphaIndexBits = 0 then x.primary t else if x.isel = 0 then x.primary t else x.secondary t

/-- The index that drives the alpha of texel `t` (`43_index_unpack.md` R162). -/
def alphaRole : IndexRole :=
  if D.alphaIndexBits = 0 then x.primary t else if x.isel = 0 then x.secondary t else x.primary t

theorem colorIndex_toFields : colorIndex D x.toFields t = x.colorRole t := by
  rw [colorIndex, primaryIndex_toFields, secondaryIndex_toFields]
  rfl

theorem alphaIndex_toFields : alphaIndex D x.toFields t = x.alphaRole t := by
  rw [alphaIndex, primaryIndex_toFields, secondaryIndex_toFields]
  rfl

/-! ### Texels -/

/-- The channel stored in `l` of a texel of subset `n`: the blend of the subset's two endpoints with weight `w`
(`44_interpolate.md` R183). -/
def blended {k : Nat} (l : List (BitVec k)) (n w : Nat) : Byte :=
  interp (x.channel l n (2 * n)) (x.channel l n (2 * n + 1)) w

/-- Texel `t` before rotation. -/
def texel : Texel :=
  let n := subsetOf D.partitionCount x.part t
  let wC := weight (x.colorRole t)
  { r := x.blended x.r n wC, g := x.blended x.g n wC, b := x.blended x.b n wC
    a := if D.alphaBits = 0 then 255 else x.blended x.a n (weight (x.alphaRole t)) }

/-- The decode stages compute `texel`; where no alpha is stored the blend of 255 with itself is 255. -/
theorem blendedTexel_toFields : blendedTexel D x.toFields t = x.texel t := by
  have hfst : 2 * subsetOf D.partitionCount x.part t / 2 = subsetOf D.partitionCount x.part t := by omega
  have hsnd : (2 * subsetOf D.partitionCount x.part t + 1) / 2 = subsetOf D.partitionCount x.part t := by omega
  have hpart : x.toFields.part = x.part := rfl
  rw [blendedTexel, hpart, x.endpoint_toFields hfst, x.endpoint_toFields hsnd, colorIndex_toFields,
    alphaIndex_toFields, texel]
  by_cases h : D.alphaBits = 0
  · simp only [h, if_true, blend, blended, interp_self 255 (weight_le _)]
  · simp only [h, if_false, blend, blended]

end StoredFields

/-! ### The instructions -/

/-- An instruction whose tile the decode stages compute completes with the rotated texels of its stored fields
(`46_block_modes.md` R210). -/
theorem exec_completes_with_texels {D : ModeDesc} (x : StoredFields D) {i : Instr} (htile : i.tile = decodeTile D x.toFields)
    {s : State} (hs : s.inReady = true) :
    ∃ T : Tile, exec i s = .next (Claims.afterAccept s (encode i) T) ∧ T.length = 16 ∧
      ∀ t, t < 16 → T[t]? = some (rotate x.rot (x.texel t)) := by
  refine ⟨i.tile, exec_of_inReady i hs, ?_, fun t ht => ?_⟩
  · rw [htile, length_decodeTile]
  · rw [htile, getElem?_decodeTile _ _ ht, x.blendedTexel_toFields]
    rfl

/-- Settles O29: three subsets, a P-bit per endpoint on 4 stored bits, no alpha. -/
theorem mode0Decodes : Obligations.Mode0Decodes := by
  intro part r g b p idx s hs
  exact exec_completes_with_texels (D := modeDesc 0) { part := part.toNat, r, g, b, pbits := p, idx1 := idx } rfl hs

/-- Settles O30: two subsets, a P-bit per subset on 6 stored bits, no alpha. -/
theorem mode1Decodes : Obligations.Mode1Decodes := by
  intro part r g b p idx s hs
  exact exec_completes_with_texels (D := modeDesc 1) { part := part.toNat, r, g, b, pbits := p, idx1 := idx } rfl hs

/-- Settles O31: three subsets, 5 stored bits without a P-bit, no alpha. -/
theorem mode2Decodes : Obligations.Mode2Decodes := by
  intro part r g b idx s hs
  exact exec_completes_with_texels (D := modeDesc 2) { part := part.toNat, r, g, b, idx1 := idx } rfl hs

/-- Settles O32: two subsets, a P-bit per endpoint on 7 stored bits, no alpha. -/
theorem mode3Decodes : Obligations.Mode3Decodes := by
  intro part r g b p idx s hs
  exact exec_completes_with_texels (D := modeDesc 3) { part := part.toNat, r, g, b, pbits := p, idx1 := idx } rfl hs

/-- Settles O33: the two values of `isel` give the two assignments of the index sets (`43_index_unpack.md` R162). -/
theorem mode4Decodes : Obligations.Mode4Decodes := by
  intro rot isel r g b a idx1 idx2 s hs
  have hcompletes := exec_completes_with_texels (D := modeDesc 4) (i := .mode4 rot isel r g b a idx1 idx2)
    { rot := rot.toNat, isel := isel.toNat, r, g, b, a, idx1, idx2 } rfl hs
  obtain rfl | rfl := BitVec.eq_zero_or_eq_one isel
  all_goals exact hcompletes

/-- Settles O34: without an `isel` field the secondary set always drives alpha. -/
theorem mode5Decodes : Obligations.Mode5Decodes := by
  intro rot r g b a idx1 idx2 s hs
  exact exec_completes_with_texels (D := modeDesc 5) { rot := rot.toNat, r, g, b, a, idx1, idx2 } rfl hs

/-- Settles O35: one subset, a P-bit per endpoint on 7 stored bits, alpha among them. -/
theorem mode6Decodes : Obligations.Mode6Decodes := by
  intro r g b a p idx s hs
  exact exec_completes_with_texels (D := modeDesc 6) { r, g, b, a, pbits := p, idx1 := idx } rfl hs

/-- Settles O36: two subsets, a P-bit per endpoint on 5 stored bits, alpha among them. -/
theorem mode7Decodes : Obligations.Mode7Decodes := by
  intro part r g b a p idx s hs
  exact exec_completes_with_texels (D := modeDesc 7) { part := part.toNat, r, g, b, a, pbits := p, idx1 := idx } rfl hs

/-- Settles O37: INVALID is accepted like any other instruction, and its tile is the fallback. -/
theorem invalidDecodesToFallback : Obligations.InvalidDecodesToFallback := fun rest _ hs =>
  exec_of_inReady (.invalid rest) hs

end Sys2Proof.Machine
end

section
/-! A driver call run through the block, cycle by cycle (`47_image_driver.md` R232, R233, R241). From the start of the call
on, memory is what the procedure `DecodeImage` leaves after the tiles stored so far, and `Q` holds the decodes of the next
blocks in their order: an acceptance appends the next one, a delivery stores the first one. -/

namespace Sys2Proof.Machine

/-! ### The loop of the procedure -/

theorem doBlocks_cons (c : Call) (m : Memory) (k : Nat) (ks : List Nat) :
    c.doBlocks m (k :: ks) = c.doBlocks (c.doBlock m k) ks := List.foldl_cons

theorem doBlocks_concat (c : Call) (m : Memory) (ks : List Nat) (k : Nat) :
    c.doBlocks m (ks ++ [k]) = c.doBlock (c.doBlocks m ks) k := List.foldl_concat _ _ _ _

/-- The loop of an in-contract call leaves every source block as it is (R240). -/
theorem blockAt_doBlocks {c : Call} {n : Nat} {m : Memory} (h : c.violation n m = none) {ks : List Nat}
    (hks : ∀ k ∈ ks, k < c.blocks) {j : Nat} (hj : j < c.blocks) (m' : Memory) :
    c.blockAt (c.doBlocks m' ks) j = c.blockAt m' j := by
  induction ks generalizing m' with
  | nil => rfl
  | cons k ks ih =>
    obtain ⟨hk, hks⟩ := List.forall_mem_cons.1 hks
    rw [doBlocks_cons, ih hks, Call.doBlock, blockAt_scatter h hj hk]

theorem blockAt_doBlocks_range {c : Call} {n : Nat} {m : Memory} (h : c.violation n m = none) {i j : Nat}
    (hi : i ≤ c.blocks) (hj : j < c.blocks) : c.blockAt (c.doBlocks m (List.range i)) j = c.blockAt m j :=
  blockAt_doBlocks h (fun _ hk => (List.mem_range.1 hk).trans_le hi) hj m

theorem decodeImage_of_inContract {c : Call} {n : Nat} {m : Memory} (h : c.violation n m = none) :
    decodeImage n c m = .ok (c.doBlocks m (List.range c.blocks)) := by
  rw [decodeImage, h]

/-! ### The fetch of a source block -/

/-- In a quiet cycle there is no reset, no new call and no other agent's write. -/
theorem quiet_iff (s : State) :
    s.quiet = true ↔ s.rst = false ∧ s.envInputs.call = none ∧ s.envInputs.hostWrites = [] := by
  simp [State.quiet, and_assoc]

section Fetch

variable {s : State} {d : Driver} (hraced : d.raced = []) (hwrites : s.envInputs.hostWrites = [])

include hraced hwrites

/-- Without another agent a fetched byte is the one in memory. -/
theorem fetchByte_unraced {a : Nat} {v : Byte} (h : fetchByte s d a = .ok v) : (s.mem.read a).getD 0 = v := by
  have hnot : s.racing d a = false := by simp [State.racing, hraced, hwrites]
  unfold fetchByte at h
  rw [hnot, if_neg Bool.false_ne_true] at h
  split at h
  case h_1 u hu =>
    rw [hu]
    simpa using h
  case h_2 => cases h

theorem fetchBytes_unraced {l : List Nat} {vs : List Byte} (h : fetchBytes s d l = .ok vs) :
    l.map (fun a => (s.mem.read a).getD 0) = vs := by
  induction l generalizing vs with
  | nil => simpa [fetchBytes] using h
  | cons a l ih =>
    unfold fetchBytes at h
    split at h
    case h_1 => cases h
    case h_2 v hv =>
      split at h
      case h_1 => cases h
      case h_2 us hus =>
        rw [List.map_cons, fetchByte_unraced hraced hwrites hv, ih hus]
        simpa using h

/-- Without another agent the driver offers the source block that its cursor stands at (R232). -/
theorem fetchBlock_unraced {b : Block} (h : fetchBlock s d = .ok b) : d.call.blockAt s.mem d.offered = b := by
  unfold fetchBlock at h
  split at h
  case h_1 => cases h
  case h_2 bs hbs =>
    have hbytes := fetchBytes_unraced hraced hwrites hbs
    rw [List.map_map] at hbytes
    rw [Call.blockAt]
    exact (congrArg blockOfBytes hbytes).trans (by simpa using h)

end Fetch

/-! ### How far the call has come -/

/-- Call `c`, begun on memory `m`, is in progress with driver `d`: the tiles before `d.stored` are in memory, those from
there up to `d.offered` are in flight (R241). -/
structure Call.Running (c : Call) (m : Memory) (s : State) (d : Driver) : Prop where
  driver : s.driver = some d
  call : d.call = c
  raced : d.raced = []
  stored : d.stored < c.blocks
  offered : d.offered = d.stored + s.queue.length
  tiles : s.queue.map (·.tile) = (List.range' d.stored s.queue.length).map fun k => decodeBlock (c.blockAt m k)
  mem : s.mem = c.doBlocks m (List.range d.stored)

/-- Call `c`, begun on memory `m`, has begun: it is in progress, or all its tiles are in memory. -/
inductive Call.Begun (c : Call) (m : Memory) (s : State) : Prop where
  | running (d : Driver) (h : c.Running m s d)
  | done (hdriver : s.driver = none) (hmem : s.mem = c.doBlocks m (List.range c.blocks))

section Begun

variable {c : Call} {m : Memory}

/-- How far the call has come shows in the driver, `Q` and memory alone. -/
theorem begun_congr {s t : State} (h : c.Begun m s) (hdriver : t.driver = s.driver) (hqueue : t.queue = s.queue)
    (hmem : t.mem = s.mem) : c.Begun m t := by
  cases h with
  | running d h =>
    exact .running d { h with
      driver := hdriver.trans h.driver
      offered := hqueue ▸ h.offered
      tiles := hqueue ▸ h.tiles
      mem := hmem.trans h.mem }
  | done hd hm => exact .done (hdriver.trans hd) (hmem.trans hm)

/-- The start of a call with a block stores and offers nothing; a call without one is complete (R238). -/
theorem begun_start {s : State} (hqueue : s.queue = []) (hmem : s.mem = m)
    (hdriver : s.driver = if c.blocks = 0 then none else some { call := c, offered := 0, stored := 0, raced := [] }) :
    c.Begun m s := by
  split at hdriver
  case isTrue h => exact .done hdriver (by rw [h, hmem]; rfl)
  case isFalse h =>
    exact .running _ {
      driver := hdriver, call := rfl, raced := rfl, stored := Nat.pos_of_ne_zero h
      offered := by simp [hqueue], tiles := by simp [hqueue], mem := hmem }

/-- A tick without other agents' writes does not touch the call. -/
theorem begun_tick {s : State} {p : Inputs} (h : c.Begun m s) (hwrites : p.hostWrites = []) (o : Outputs) :
    c.Begun m (s.tick p o) := by
  refine begun_congr h ?_ rfl ?_
  · simp [hwrites]
  · simp [hwrites]

variable {n : Nat} (hc : c.violation n m = none)

include hc

/-- The acceptance of the block on offer puts the next block of the call in flight, with its decode (R232). -/
theorem begun_accept {s : State} {b : Block} (h : c.Begun m s) (hwrites : s.envInputs.hostWrites = [])
    (ho : s.offer = .ok (some b)) : c.Begun m (accepting b (decodeBlock b) s).noteAccepted := by
  cases h with
  | done hd hm => exact .done (by simp [hd]) hm
  | running d h =>
    obtain ⟨-, ⟨hidle, -⟩ | ⟨d', hd', hlt, hfetch⟩⟩ := offer_some ho
    · cases hidle.symm.trans h.driver
    · obtain rfl : d' = d := Option.some.inj (hd'.symm.trans h.driver)
      have hb : c.blockAt m (d'.stored + s.queue.length) = b := by
        rw [← h.offered, ← fetchBlock_unraced h.raced hwrites hfetch, h.call, h.mem,
          blockAt_doBlocks_range hc h.stored.le (h.call ▸ hlt)]
      refine .running { d' with offered := d'.offered + 1 } { h with
        driver := by simp [h.driver], offered := ?_, tiles := ?_ }
      · simp [h.offered, Nat.add_assoc]
      · simp [List.range'_1_concat, h.tiles, hb]

/-- A delivery stores the next tile of the call (R233); the last one completes it. -/
theorem begun_deliverHead {s : State} (h : c.Begun m s) : c.Begun m s.deliverHead := by
  cases h with
  | done hd hm =>
    rw [deliverHead_idle s hd]
    exact .done hd hm
  | running d h =>
    obtain rfl : d.call = c := h.call
    cases hq : s.queue with
    | nil =>
      rw [deliverHead_nil s hq]
      exact .running d h
    | cons e q =>
      have htiles := h.tiles
      simp only [hq, List.map_cons, List.length_cons, List.range'_succ, List.cons.injEq] at htiles
      obtain ⟨htile, htiles⟩ := htiles
      obtain ⟨hmem, hdriver⟩ := deliverHead_busy s h.driver hq
      have hstore : s.deliverHead.mem = d.call.doBlocks m (List.range (d.stored + 1)) := by
        rw [hmem, htile, h.mem, List.range_succ, doBlocks_concat, Call.doBlock,
          blockAt_doBlocks_range hc h.stored.le h.stored]
      split at hdriver
      case isTrue hlt =>
        refine .running { d with stored := d.stored + 1 } { h with
          driver := hdriver, stored := hlt, offered := ?_, tiles := ?_, mem := hstore }
        · simp [h.offered, hq]
          omega
        · simpa [hq] using htiles
      case isFalse hlast =>
        have hall : d.stored + 1 = d.call.blocks := by have := h.stored; omega
        exact .done hdriver (hall ▸ hstore)

/-- The rest of a clock edge after the acceptance: a delivery, if any, and the tick. -/
theorem begun_clockEdge {s0 s : State} {offered : Bool} (hwrites : s0.envInputs.hostWrites = [])
    (h : c.Begun m (if offered && s0.inReady then s.noteAccepted else s)) : c.Begun m (s0.clockEdge offered s) := by
  unfold State.clockEdge
  refine begun_tick ?_ hwrites _
  split
  · exact begun_deliverHead hc h
  · exact h

/-- A quiet step of a call that has begun: no other call waits, so the step is a clock edge without a reset, with an
accepted block or without one. -/
theorem begun_step {s t : State} (h : c.Begun m s) (hcalls : s.calls = []) (hquiet : s.quiet = true)
    (hstep : step s = .next t) : t.calls = [] ∧ c.Begun m t := by
  obtain ⟨hrst, hcall, hwrites⟩ := (quiet_iff s).1 hquiet
  obtain ⟨hs, hstart⟩ | ⟨-, hrst', -⟩ | ⟨-, -, -, rfl⟩ | ⟨b, -, -, ho, rfl⟩ := step_cases hstep
  case inl =>
    obtain ⟨c', rest, hcalls', -⟩ := startCall_cases hs hstart
    cases hcalls.symm.trans hcalls'
  case inr.inl => cases hrst.symm.trans hrst'
  case inr.inr.inl => exact ⟨by simp [hcalls, hcall], begun_clockEdge hc hwrites h⟩
  case inr.inr.inr =>
    rw [accepting_encode_decode]
    cases hr : s.inReady with
    | false => exact ⟨by simp [hcalls, hcall], begun_clockEdge hc hwrites (by simpa [hr] using h)⟩
    | true =>
      refine ⟨?_, begun_clockEdge hc hwrites (by simpa [hr] using begun_accept hc h hwrites ho)⟩
      simp [accepting, hcalls, hcall]

/-- A quiet run of a call that has begun. -/
theorem begun_run {k : Nat} {s t : State} (h : c.Begun m s) (hcalls : s.calls = [])
    (hquiet : always State.quiet k s = true) (hrun : Host.Core.run core k s = .next t) : c.Begun m t := by
  induction k generalizing s with
  | zero =>
    cases hrun
    exact h
  | succ k ih =>
    obtain ⟨u, hu, hk⟩ := run_succ hrun
    obtain ⟨hnow, hrest⟩ := (always_succ hu).1 hquiet
    obtain ⟨hcalls', h'⟩ := begun_step hc h hcalls hnow hu
    exact ih h' hcalls' hrest hk

end Begun

/-- The first step from an idle machine with one waiting call begins that call. -/
theorem begun_of_callStarts {s t : State} {c : Call} (hs : s.callStarts = true) (hcalls : s.calls = [c])
    (hstep : step s = .next t) : t.calls = [] ∧ c.Begun s.mem t := by
  obtain ⟨-, hstart⟩ | ⟨hs', -⟩ | ⟨hs', -⟩ | ⟨-, hs', -⟩ := step_cases hstep
  case inl =>
    obtain ⟨c', rest, hcalls', -, hqueue, -, rfl⟩ := startCall_cases hs hstart
    obtain ⟨rfl, rfl⟩ : c = c' ∧ [] = rest := by simpa [hcalls] using hcalls'
    exact ⟨rfl, begun_start hqueue rfl rfl⟩
  all_goals cases hs.symm.trans hs'

/-- Settles O60: the first step begins the call, every further one is a quiet step of it, and with no call in progress at
the end all tiles are stored. -/
theorem driverThroughBlockIsDecodeImage : Obligations.DriverThroughBlockIsDecodeImage := by
  intro k s t c _ hdriver hqueue hcalls hc hquiet hk hrun hidle
  obtain ⟨k, rfl⟩ := Nat.exists_eq_add_of_le' hk
  obtain ⟨u, hu, hrest⟩ := run_succ hrun
  have hs : s.callStarts = true := by simp [State.callStarts, hdriver, hqueue, hcalls]
  obtain ⟨hcalls', hbegun⟩ := begun_of_callStarts hs hcalls hu
  rw [decodeImage_of_inContract hc]
  cases begun_run hc hbegun hcalls' ((always_succ hu).1 hquiet).2 hrest with
  | running d h => cases hidle.symm.trans h.driver
  | done _ hmem => rw [hmem]

end Sys2Proof.Machine
end

section
/-! The contract of a driver call (`47_image_driver.md` R231, R240) and what a step makes of it: an in-contract call begins,
another one is refused (R235), and the fetch of an in-contract call finds every byte, so that nothing faults. -/

namespace Sys2Proof.Machine

/-! ### The checks on buffers -/

theorem bufferExists_iff (n base len : Nat) : bufferExists n base len = true ↔ ∀ j, j < len → base + j < 2 ^ n := by
  simp only [bufferExists, Bool.or_eq_true, beq_iff_eq, decide_eq_true_eq]
  constructor
  case mp => omega
  case mpr =>
    intro h
    rcases Nat.eq_zero_or_pos len with hlen | hlen
    · exact .inl hlen
    · have hlast := h (len - 1) (by omega)
      exact .inr (by omega)

theorem bufferReadable_iff (m : Memory) (base len : Nat) :
    bufferReadable m base len = true ↔ ∀ j, j < len → (m.read (base + j)).isSome = true := by
  simp [bufferReadable]

/-- Two buffers that share no byte do not reach into each other: the later of their first bytes would be shared. -/
theorem buffersDisjoint_iff (a aLen b bLen : Nat) :
    buffersDisjoint a aLen b bLen = true ↔ ∀ j l, j < aLen → l < bLen → a + j ≠ b + l := by
  simp only [buffersDisjoint, Bool.or_eq_true, beq_iff_eq, decide_eq_true_eq]
  constructor
  case mp => omega
  case mpr =>
    intro h
    have hshared := h (max a b - a) (max a b - b)
    omega

/-! ### The contract -/

theorem isEmpty_iff (c : Call) : c.isEmpty = true ↔ c.w = 0 ∨ c.h = 0 := by simp [Call.isEmpty]

/-- A list of checks finds nothing when its first check passes and the others find nothing. -/
theorem ite_some_eq_none_iff {α : Type} {p : Prop} [Decidable p] (a : α) (o : Option α) :
    (if p then some a else o) = none ↔ ¬ p ∧ o = none := by
  split <;> simp [*]

/-- The contract as the list of its checks. -/
theorem violation_eq_none_iff (c : Call) (n : Nat) (m : Memory) :
    c.violation n m = none ↔ c.w % 4 = 0 ∧ c.h % 4 = 0 ∧ 4 * c.w ≤ c.pitch ∧
      (c.isEmpty = true ∨ bufferExists n c.dst c.dstBytes = true ∧
        (bufferExists n c.src c.srcBytes = true ∧ bufferReadable m c.src c.srcBytes = true) ∧
          buffersDisjoint c.src c.srcBytes c.dst c.dstBytes = true) := by
  simp only [Call.violation, ite_some_eq_none_iff, not_not, Nat.not_lt]
  by_cases he : c.isEmpty = true
  · simp [he]
  · simp [he, ite_some_eq_none_iff]

/-- The contract as the rules list it: what is asked of each byte of the two buffers (R231, R238, R240). -/
theorem inContract_iff (c : Call) (n : Nat) (m : Memory) :
    c.violation n m = none ↔ c.w % 4 = 0 ∧ c.h % 4 = 0 ∧ 4 * c.w ≤ c.pitch ∧
      (c.w = 0 ∨ c.h = 0 ∨
        (∀ j, j < c.srcBytes → c.src + j < 2 ^ n ∧ (m.read (c.src + j)).isSome = true) ∧
        (∀ j, j < c.dstBytes → c.dst + j < 2 ^ n) ∧
        ∀ j l, j < c.srcBytes → l < c.dstBytes → c.src + j ≠ c.dst + l) := by
  have hsrc : (∀ j, j < c.srcBytes → c.src + j < 2 ^ n ∧ (m.read (c.src + j)).isSome = true) ↔
      bufferExists n c.src c.srcBytes = true ∧ bufferReadable m c.src c.srcBytes = true := by
    rw [bufferExists_iff, bufferReadable_iff]
    simp only [imp_and, forall_and]
  rw [violation_eq_none_iff, isEmpty_iff, hsrc, ← bufferExists_iff, ← buffersDisjoint_iff, or_assoc,
    and_left_comm (a := bufferExists n c.dst c.dstBytes = true)]

/-! ### The start of a call -/

/-- A call that can begin and breaks its contract is refused (R235). -/
theorem step_refuses {s : State} {c : Call} {rest : List Call} {v : Violation} (hs : s.callStarts = true)
    (hcalls : s.calls = c :: rest) (hv : c.violation s.addrBits s.mem = some v) :
    step s = .refused (.outOfContract v) := by
  simp [step, hs, startCall, hcalls, hv]

/-- A call that can begin and is in contract begins. -/
theorem step_begins {s : State} {c : Call} {rest : List Call} (hs : s.callStarts = true)
    (hcalls : s.calls = c :: rest) (hv : c.violation s.addrBits s.mem = none) :
    step s = .next { s with
      calls := rest
      driver := if c.blocks = 0 then none else some { call := c, offered := 0, stored := 0, raced := [] } } := by
  simp [step, hs, startCall, hcalls, hv]

/-- Settles O56: the list of checks, and what the step does where one fails and where none does. -/
theorem contractDecidesTheCall : Obligations.ContractDecidesTheCall := fun s c _ hs hcalls =>
  ⟨inContract_iff c s.addrBits s.mem, fun _ hv => step_refuses hs hcalls hv, step_begins hs hcalls⟩

/-! ### No fault -/

theorem exists_call_of_callStarts {s : State} (h : s.callStarts = true) : ∃ c rest, s.calls = c :: rest := by
  unfold State.callStarts at h
  split at h
  · exact ⟨_, _, ‹_›⟩
  · cases h

/-- Every byte of every source block of an in-contract call holds a value (R231 item 4). -/
theorem isSome_read_srcAddr {c : Call} {n : Nat} {m : Memory} (h : c.violation n m = none) {k i : Nat}
    (hk : k < c.blocks) (hi : i < 16) : (m.read (c.srcAddr k i)).isSome = true := by
  obtain ⟨-, -, -, hbuf⟩ := violation_none h
  obtain ⟨-, -, hreadable, -⟩ := hbuf (isEmpty_of_blocks (Nat.zero_lt_of_lt hk))
  rw [Call.srcAddr, Nat.add_assoc]
  exact hreadable _ (by unfold Call.srcBytes; omega)

/-- The fetch of a block of an in-contract call answers a block. -/
theorem fetchBlock_of_inContract {s : State} {d : Driver} {n : Nat} (h : d.call.violation n s.mem = none)
    (hlt : d.offered < d.call.blocks) : ∃ b, fetchBlock s d = .ok b := by
  have hsome : ∀ a ∈ (List.range 16).map (d.call.srcAddr d.offered), (s.mem.read a).isSome = true := by
    intro a ha
    obtain ⟨i, hi, rfl⟩ := List.mem_map.1 ha
    exact isSome_read_srcAddr h hlt (List.mem_range.1 hi)
  obtain ⟨bs, hbs⟩ := fetchBytes_ok (d := d) _ hsome
  exact ⟨blockOfBytes bs, by rw [fetchBlock, hbs]⟩

/-- In a good state the offer is no fault: only the driver fetches, and its call is in contract. -/
theorem offer_of_inv {s : State} (h : s.Inv) : ∃ o, s.offer = .ok o := by
  cases hv : s.envInputs.inValid with
  | false => exact ⟨none, offer_of_not_inValid hv⟩
  | true =>
    cases hd : s.driver with
    | none => exact ⟨_, offer_of_inValid hd hv⟩
    | some d =>
      obtain ⟨-, -, -, -, hdriver⟩ := h
      obtain ⟨hcall, -, -, -⟩ := hdriver d hd
      by_cases hlt : d.offered < d.call.blocks
      · obtain ⟨b, hb⟩ := fetchBlock_of_inContract hcall hlt
        exact ⟨some b, by simp [State.offer, hv, hd, hlt, hb]⟩
      · exact ⟨none, by simp [State.offer, hv, hd, hlt]⟩

/-- A cycle whose offer is no fault answers a next state. -/
theorem runCycle_of_offer {s : State} {o : Option Block} (h : s.offer = .ok o) : ∃ t, runCycle s = .next t := by
  rw [runCycle_eq, h]
  cases o with
  | none => exact ⟨_, rfl⟩
  | some b => exact ⟨_, rfl⟩

/-- Settles O49: the start of a call is refused or begins it, a reset edge always answers, and so does a cycle, as the
driver's fetch finds its bytes. -/
theorem noFaultFromGoodStates : Obligations.NoFaultFromGoodStates := by
  intro s h
  cases hs : s.callStarts with
  | true =>
    obtain ⟨c, rest, hcalls⟩ := exists_call_of_callStarts hs
    cases hv : c.violation s.addrBits s.mem with
    | none => exact .inl ⟨_, step_begins hs hcalls hv⟩
    | some v => exact .inr ⟨c, rest, v, hcalls, hv, step_refuses hs hcalls hv⟩
  | false =>
    left
    cases hrst : s.rst with
    | true => exact ⟨s.resetEdge, by simp [step, hs, hrst]⟩
    | false =>
      obtain ⟨o, ho⟩ := offer_of_inv h
      obtain ⟨t, ht⟩ := runCycle_of_offer ho
      exact ⟨t, by simp [step, hs, hrst, ht]⟩

end Sys2Proof.Machine
end

section
/-! The decoded image in memory (`47_image_driver.md` R233, R234, R243). Pixel (X, Y) is texel `4 (Y mod 4) + X mod 4` of block
`(Y div 4)(W/4) + X div 4`; its channels have addresses of their own, so that the order of the blocks does not matter (R237)
and each byte may be read as if its block had been stored last. -/

namespace Sys2Proof.Machine

/-! ### Addresses -/

theorem rowBlocks_pos_of_lt {c : Call} {k : Nat} (h : k < c.blocks) : 0 < c.rowBlocks :=
  Nat.pos_of_mul_pos_right (Nat.zero_lt_of_lt h)

/-- Settles O57: an image that has a block has one in each block row, so that an address tells where it belongs. -/
theorem destinationAddressesDiffer : Obligations.DestinationAddressesDiffer := by
  intro c _ hp k t x k' t' x' hk ht hx _ ht' hx' h
  exact dstAddr_inj hp (rowBlocks_pos_of_lt hk) ht hx ht' hx' h

/-- The block of a pixel is a block of the image. -/
theorem blockNumber_lt {c : Call} (hw : c.w % 4 = 0) (hh : c.h % 4 = 0) {X Y : Nat} (hX : X < c.w) (hY : Y < c.h) :
    Y / 4 * (c.w / 4) + X / 4 < c.blocks := by
  have hx : X / 4 < c.w / 4 := by omega
  have hy : Y / 4 + 1 ≤ c.h / 4 := by omega
  calc Y / 4 * (c.w / 4) + X / 4 < (Y / 4 + 1) * (c.w / 4) := by rw [Nat.add_mul, Nat.one_mul]; omega
    _ ≤ c.h / 4 * (c.w / 4) := Nat.mul_le_mul_right _ hy
    _ = c.blocks := Nat.mul_comm _ _

/-- Channel `ch` of pixel (X, Y) goes to `dst + Y*pitch + 4X + ch` (R233). -/
theorem dstAddr_pixel {c : Call} (hw : c.w % 4 = 0) {X : Nat} (hX : X < c.w) (Y ch : Nat) :
    c.dstAddr (Y / 4 * (c.w / 4) + X / 4) (4 * (Y % 4) + X % 4) ch = c.dst + Y * c.pitch + 4 * X + ch := by
  have hx : X / 4 < c.w / 4 := by omega
  have hrow : (Y / 4 * (c.w / 4) + X / 4) / (c.w / 4) = Y / 4 := by
    rw [Nat.mul_comm, Nat.mul_add_div (Nat.zero_lt_of_lt hx), Nat.div_eq_of_lt hx, Nat.add_zero]
  have hcol : (Y / 4 * (c.w / 4) + X / 4) % (c.w / 4) = X / 4 := by
    rw [Nat.mul_comm, Nat.mul_add_mod, Nat.mod_eq_of_lt hx]
  have hY : 4 * (Y / 4) + (4 * (Y % 4) + X % 4) / 4 = Y := by omega
  rw [Call.dstAddr, Call.rowBlocks, hrow, hcol, hY]
  omega

/-- Every destination address is that of a pixel's channel. -/
theorem exists_pixel {c : Call} {k t : Nat} (hk : k < c.blocks) (ht : t < 16) (ch : Nat) :
    ∃ X Y, X < c.w ∧ Y < c.h ∧ c.dstAddr k t ch = c.dst + Y * c.pitch + 4 * X + ch := by
  have hx := Nat.mod_lt k (rowBlocks_pos_of_lt hk)
  have hy : k / c.rowBlocks < c.h / 4 := Nat.div_lt_of_lt_mul hk
  have hrow : c.rowBlocks = c.w / 4 := rfl
  refine ⟨4 * (k % c.rowBlocks) + t % 4, 4 * (k / c.rowBlocks) + t / 4, by omega, by omega, ?_⟩
  rw [Call.dstAddr, Nat.mul_comm _ 4]

/-! ### The bytes that a scatter leaves -/

/-- Of writes at different addresses each one is read back. -/
theorem read_writeAll_of_mem {l : List Host.Cell} (hl : (l.map (·.1)).Nodup) {a : Nat} {v : Byte} (h : (a, v) ∈ l)
    (m : Memory) : (m.writeAll l).read a = some v := by
  induction l generalizing m with
  | nil => cases h
  | cons x l ih =>
    obtain ⟨hx, hl⟩ := List.nodup_cons.1 hl
    rw [writeAll_cons]
    rcases List.mem_cons.1 h with rfl | h
    · rw [read_writeAll_of_notMem _ _ hx, read_write_same]
    · exact ih hl h _

/-- The 64 addresses of a tile differ (R243 item 1). -/
theorem tileCells_nodup {c : Call} (hp : 4 * c.w ≤ c.pitch) (hr : 0 < c.rowBlocks) (k : Nat) (T : Tile) :
    ((c.tileCells k T).map (·.1)).Nodup := by
  rw [Call.tileCells, List.map_map]
  refine List.Nodup.map_on (fun i hi j hj hij => ?_) List.nodup_range
  rw [List.mem_range] at hi hj
  obtain ⟨-, ht, hch⟩ := dstAddr_inj hp hr (by omega) (by omega) (by omega) (by omega) hij
  omega

/-- A scatter leaves channel `ch` of texel `t` at its address (R233). -/
theorem read_scatter_dstAddr {c : Call} (hp : 4 * c.w ≤ c.pitch) (hr : 0 < c.rowBlocks) (k : Nat) {T : Tile} {t ch : Nat}
    {x : Texel} (ht : t < 16) (hx : T[t]? = some x) (hch : ch < 4) (m : Memory) :
    (c.scatter m k T).read (c.dstAddr k t ch) = (texelBytes x)[ch]? := by
  have hbyte := getElem?_tileBytes hx hch
  obtain ⟨v, hv⟩ : ∃ v, (texelBytes x)[ch]? = some v := ⟨_, List.getElem?_eq_getElem (l := texelBytes x) hch⟩
  rw [hv] at hbyte ⊢
  refine read_writeAll_of_mem (tileCells_nodup hp hr k T) (List.mem_map.2 ⟨4 * t + ch, List.mem_range.2 (by omega), ?_⟩) m
  have hdiv : (4 * t + ch) / 4 = t := by omega
  have hmod : (4 * t + ch) % 4 = ch := by omega
  rw [hdiv, hmod, List.getD_eq_getElem?_getD, hbyte, Option.getD_some]

theorem length_tile (i : Instr) : i.tile.length = 16 := by
  cases i with
  | invalid rest => rfl
  | _ => exact length_decodeTile _ _

/-! ### The bytes that the procedure leaves -/

/-- Any block of an in-contract call may be taken last (R237). -/
theorem doBlocks_eq_scatter_last {c : Call} {n : Nat} {m : Memory} (h : c.violation n m = none) {k : Nat}
    (hk : k < c.blocks) :
    ∃ m', c.doBlocks m (List.range c.blocks) = c.scatter m' k (decodeBlock (c.blockAt m k)) := by
  have hall : ∀ j ∈ List.range c.blocks, j < c.blocks := fun j hj => List.mem_range.1 hj
  have hperm : (List.range c.blocks).Perm ((List.range c.blocks).erase k ++ [k]) :=
    (List.perm_cons_erase (List.mem_range.2 hk)).trans (List.perm_append_singleton k _).symm
  refine ⟨c.doBlocks m ((List.range c.blocks).erase k), ?_⟩
  rw [doBlocks_perm h hperm hall, doBlocks_concat, Call.doBlock,
    blockAt_doBlocks h (fun j hj => hall j (List.mem_of_mem_erase hj)) hk]

/-- The loop changes no byte but the destination bytes of the blocks it takes (R234). -/
theorem read_doBlocks_of_ne {c : Call} {a : Nat} {ks : List Nat}
    (h : ∀ k ∈ ks, ∀ t ch, t < 16 → ch < 4 → a ≠ c.dstAddr k t ch) (m : Memory) :
    (c.doBlocks m ks).read a = m.read a := by
  induction ks generalizing m with
  | nil => rfl
  | cons k ks ih =>
    obtain ⟨hk, hks⟩ := List.forall_mem_cons.1 h
    rw [doBlocks_cons, ih hks, Call.doBlock, read_scatter_of_ne _ _ hk]

/-- Settles O58: the byte of a pixel's channel is read as left by the scatter of its block, taken last; a byte that belongs
to no pixel is no destination byte of any block. -/
theorem decodeImageWritesTheImage : Obligations.DecodeImageWritesTheImage := by
  intro n c m h
  obtain ⟨hw, hh, hp, -⟩ := violation_none h
  refine ⟨_, decodeImage_of_inContract h, ?image, ?frame⟩
  case image =>
    intro X Y ch hX hY hch
    have hk := blockNumber_lt hw hh hX hY
    have ht : 4 * (Y % 4) + X % 4 < 16 := by omega
    have hlen : 4 * (Y % 4) + X % 4 < (decodeBlock (c.blockAt m (Y / 4 * (c.w / 4) + X / 4))).length :=
      ht.trans_eq (length_tile _).symm
    obtain ⟨m', hm'⟩ := doBlocks_eq_scatter_last h hk
    refine ⟨_, List.getElem?_eq_getElem hlen, ?_⟩
    rw [hm', ← dstAddr_pixel hw hX]
    exact read_scatter_dstAddr hp (rowBlocks_pos_of_lt hk) _ ht (List.getElem?_eq_getElem hlen) hch m'
  case frame =>
    intro a ha
    refine read_doBlocks_of_ne (fun k hk t ch ht hch => ?_) m
    obtain ⟨X, Y, hX, hY, haddr⟩ := exists_pixel (List.mem_range.1 hk) ht ch
    exact haddr ▸ ha X Y ch hX hY hch

end Sys2Proof.Machine
end

section
/-! The clock cycle of the block (`70_reset_and_hazards.md`): what an edge does to `Q` and to the ports, what a reset does
(R280), and that every block in flight is delivered to a consumer that takes what is offered (R287). -/

namespace Sys2Proof.Machine

/-! ### Instructions and the step -/

/-- Settles O38: an instruction is an acceptance, and with `in_ready` = 0 none happens. -/
theorem nothingIsAcceptedWhenNotReady : Obligations.NothingIsAcceptedWhenNotReady := by
  intro i s hr
  rw [exec_eq, hr, if_neg Bool.false_ne_true]

/-- With no call to start and `rst` = 0 a step is one clock cycle. -/
theorem step_eq_runCycle {s : State} (hs : s.callStarts = false) (hrst : s.rst = false) : step s = runCycle s := by
  simp [step, hs, hrst]

/-- With `rst` = 1 and no call to start a step is a reset edge. -/
theorem step_eq_resetEdge {s : State} (hs : s.callStarts = false) (hrst : s.rst = true) : step s = .next s.resetEdge := by
  simp [step, hs, hrst]

/-- A cycle with a block on offer is the execution of its decode, followed by the rest of the edge. -/
theorem runCycle_of_exec {s t : State} {b : Block} (ho : s.offer = .ok (some b)) (hexec : exec (decode b) s = .next t) :
    runCycle s = .next (s.clockEdge true t) := by
  simp [runCycle, ho, hexec]

/-- Settles O39: the step is a clock cycle, and the cycle executes the decode of the block on offer. -/
theorem stepRunsDecodedBlock : Obligations.StepRunsDecodedBlock := by
  rintro s t b _ hs hrst ho rfl hexec
  rw [step_eq_runCycle hs hrst, runCycle_of_exec ho hexec]

/-! ### What a cycle does to `Q` and to the ports -/

/-- The entry with which a block accepted in this cycle stands in `Q` (R289). -/
def State.newEntry (s : State) (b : Block) : Entry :=
  { blk := b, tile := decodeBlock b, nAcc := s.cycle, lat := s.latency }

/-- With no call to start, a block is accepted exactly when one is on offer and `in_ready` is 1 (R283). -/
theorem acceptedBlock_of_offer {s : State} {o : Option Block} (hs : s.callStarts = false) (ho : s.offer = .ok o) :
    s.acceptedBlock = if s.inReady then o else none := by
  simp [State.acceptedBlock, hs, ho]

/-- The update of `Q` in a step without reset (R289): the delivery takes the oldest entry off, the acceptance appends the
new one. -/
theorem queue_of_step {s t : State} (h : step s = .next t) (hrst : s.rst = false) :
    t.queue = (if s.delivers then s.queue.tail else s.queue) ++ s.acceptedBlock.toList.map s.newEntry := by
  cases hb : s.acceptedBlock with
  | none => simp [(step_of_no_acceptance h hb).2, hrst]
  | some b => exact queue_of_acceptedBlock h hb

/-- Every clock edge ends the cycle and keeps what its output ports carried. -/
theorem cycle_out_of_step {s t : State} (h : step s = .next t) (hs : s.callStarts = false) :
    t.cycle = s.cycle + 1 ∧ t.out = s.outputs := by
  obtain ⟨hs', -⟩ | ⟨-, -, rfl⟩ | ⟨-, -, -, rfl⟩ | ⟨b, -, -, -, rfl⟩ := step_cases h
  case inl => cases hs.symm.trans hs'
  case inr.inl => simp
  case inr.inr.inl => simp
  case inr.inr.inr => cases s.inReady <;> simp

/-- A delivery happens exactly when both sides of the output handshake are 1 (R283). -/
theorem delivers_iff (s : State) : s.delivers = true ↔ s.outValid = true ∧ s.envInputs.outReady = true :=
  Bool.and_eq_true_iff

theorem inReady_of_rst {s : State} (h : s.rst = true) : s.inReady = false := by simp [State.inReady, h]

theorem outValid_of_rst {s : State} (h : s.rst = true) : s.outValid = false := by simp [State.outValid, h]

theorem outValid_of_queue_nil {s : State} (h : s.queue = []) : s.outValid = false := by simp [State.outValid, h]

/-- With `rst` = 0, `in_ready` is 1 exactly when `Q` has room (R288). -/
theorem inReady_iff_room {s : State} (hrst : s.rst = false) :
    s.inReady = true ↔ s.queue.length < s.maxInflight := by
  simp [inReady_iff, hrst]

/-- With `rst` = 0, `out_valid` is 1 exactly when the oldest entry has waited its latency (R284). -/
theorem outValid_iff_due {s : State} (hrst : s.rst = false) :
    s.outValid = true ↔ ∃ e q, s.queue = e :: q ∧ e.nAcc + e.lat ≤ s.cycle := by
  simp [outValid_iff, hrst]

/-- In a good state the tile on offer is the decode of the oldest block (R284). -/
theorem outTexels_of_inv {s : State} (h : s.Inv) (hv : s.outValid = true) {e : Entry} {q : List Entry}
    (hq : s.queue = e :: q) : s.outTexels = formatTile (decodeBlock e.blk) := by
  obtain ⟨-, -, ⟨-, hok, -⟩, -, -⟩ := h
  obtain ⟨htile, -, -⟩ := hok e (by simp [hq])
  rw [outTexels_valid hv hq, htile]

/-- Settles O41: a reset edge empties `Q`; in any other cycle the ports follow R284 and R288, and `Q` loses the delivered
entry and gains the accepted one. -/
theorem cycleFollowsStepFunction : Obligations.CycleFollowsStepFunction := by
  intro s t hinv hs h
  obtain ⟨hcycle, hout⟩ := cycle_out_of_step h hs
  have hin : t.out.inReady = s.inReady := by rw [hout]; rfl
  have hvalid : t.out.outValid = s.outValid := by rw [hout]; rfl
  have htexels : t.out.outTexels = s.outTexels := by rw [hout]; rfl
  rw [hin, hvalid, htexels]
  refine ⟨hcycle, fun hrst => ?reset, fun hrst => ?running⟩
  case reset =>
    obtain rfl : s.resetEdge = t := by simpa [step_eq_resetEdge hs hrst] using h
    exact ⟨inReady_of_rst hrst, outValid_of_rst hrst, resetEdge_queue s⟩
  case running =>
    obtain ⟨o, ho⟩ := offer_of_inv hinv
    refine ⟨inReady_iff_room hrst, outValid_iff_due hrst, fun hv e q hq => outTexels_of_inv hinv hv hq, o, ho, ?_⟩
    rw [queue_of_step h hrst, acceptedBlock_of_offer hs ho, List.map_append, List.map_map]
    simp only [delivers_iff]
    cases s.inReady <;> rfl

/-! ### Input-ready rule -/

/-- `in_ready` depends on `rst` and on the room in `Q` alone (R288). -/
theorem inReady_congr {s t : State} (hrst : t.rst = s.rst) (hroom : t.room = s.room) : t.inReady = s.inReady := by
  rw [State.inReady, State.inReady, hrst, hroom]

/-- Settles O42: `out_ready` touches neither `rst` nor `Q`, and the bound on `Q` is part of the invariant. -/
theorem inReadyExactlyWhenRoom : Obligations.InReadyExactlyWhenRoom := by
  refine fun s => ⟨inReady_iff_room, fun p ps v hin => inReady_congr ?_ rfl, fun t hinv h => ?_⟩
  · simp [State.rst, State.envInputs, hin]
  · obtain ⟨-, -, ⟨hlen, -, -⟩, -, -⟩ := stepKeepsInvariant s t hinv h
    exact hlen

/-! ### Output rule -/

/-- A call begins only while `Q` is empty (`47_image_driver.md` R241). -/
theorem callStarts_of_queue_cons {s : State} {e : Entry} {q : List Entry} (hq : s.queue = e :: q) :
    s.callStarts = false := by
  rw [Bool.eq_false_iff]
  exact fun hs => by cases hq.symm.trans (queue_of_callStarts hs)

/-- An offer that is not taken stays, unchanged, in the next cycle without reset: its entry is still the oldest one, and
it has waited one cycle more (R284). -/
theorem offer_held {s t : State} (h : step s = .next t) (hv : s.outValid = true) (hd : s.delivers = false)
    (hrst : t.rst = false) : t.outValid = true ∧ t.outTexels = s.outTexels := by
  obtain ⟨hrst0, e, q, hq, hdue⟩ := (outValid_iff s).1 hv
  have hqueue : t.queue = e :: (q ++ s.acceptedBlock.toList.map s.newEntry) := by simp [queue_of_step h hrst0, hd, hq]
  obtain ⟨hcycle, -⟩ := cycle_out_of_step h (callStarts_of_queue_cons hq)
  have hvalid : t.outValid = true := (outValid_iff t).2 ⟨hrst, e, _, hqueue, by omega⟩
  exact ⟨hvalid, by rw [outTexels_valid hvalid hqueue, outTexels_valid hv hq]⟩

/-- Settles O43: the two clauses on the ports, and the held offer as a step lemma. -/
theorem outputHoldsUntilDelivered : Obligations.OutputHoldsUntilDelivered := fun _ hinv hrst =>
  ⟨outValid_iff_due hrst, fun hv _ _ hq => outTexels_of_inv hinv hv hq, fun _ h hv hd ht => offer_held h hv hd ht⟩

/-! ### Latency -/

theorem due_iff (e : Entry) (n : Nat) : e.due n = true ↔ e.nAcc + e.lat ≤ n := decide_eq_true_iff

/-- The latency of a transaction is at least 1 (R287). -/
theorem latency_pos (s : State) : 1 ≤ s.latency := Nat.le_add_left 1 _

/-- Settles O44: the accepted block stands at the end of `Q` with the number of this cycle and the transaction's latency,
so that it is due only after this cycle. -/
theorem latencyIsWaited : Obligations.LatencyIsWaited := by
  intro s t b _ h hb
  have hlat := latency_pos s
  refine ⟨s.newEntry b, ?_, rfl, rfl, hlat, ?_, due_iff (s.newEntry b)⟩
  · rw [queue_of_acceptedBlock h hb, List.getLast?_concat]
    rfl
  · rw [Bool.eq_false_iff, ne_eq, due_iff]
    exact Nat.not_le.2 (Nat.lt_add_of_pos_right hlat)

/-! ### Reset -/

/-- Nothing is accepted with `in_ready` = 0 (R283). -/
theorem acceptedBlock_of_not_inReady {s : State} (h : s.inReady = false) : s.acceptedBlock = none := by
  simp [State.acceptedBlock, h]

/-- Nothing is delivered with `out_valid` = 0 (R283). -/
theorem deliveredTile_of_not_outValid {s : State} (h : s.outValid = false) : s.deliveredTile = none := by
  simp [State.deliveredTile, State.delivers, h]

/-- Settles O45: the step is the reset edge; both handshake outputs are 0 in its cycle, so that nothing is transferred, and
the empty `Q` it leaves has room and nothing to offer. -/
theorem resetEmptiesQueue : Obligations.ResetEmptiesQueue := by
  intro s hinv hs hrst
  have hr := inReady_of_rst hrst
  have hv := outValid_of_rst hrst
  refine ⟨s.resetEdge, step_eq_resetEdge hs hrst, resetEdge_queue s, hr, hv, acceptedBlock_of_not_inReady hr,
    deliveredTile_of_not_outValid hv, resetEdge_accepted s, fun a ha => read_hostWrite_of_notMem _ _ ha, fun hnext => ?_⟩
  obtain ⟨hmax, -⟩ := hinv
  exact ⟨outValid_of_queue_nil (resetEdge_queue s), (inReady_iff_room hnext).2 hmax⟩

/-! ### Conservation and progress -/

/-- Settles O50: tiles are conserved by a step without reset from any state, a good one in particular. -/
theorem cycleConservesTiles : Obligations.CycleConservesTiles := fun _ _ _ hrst h => step_conserves_tiles h hrst

/-- In this cycle there is no reset, no new driver call, and the consumer takes what is offered. -/
def State.undisturbed (s : State) : Bool := s.eager && s.envInputs.call.isNone

theorem undisturbed_iff (s : State) :
    s.undisturbed = true ↔ s.rst = false ∧ s.envInputs.outReady = true ∧ s.envInputs.call = none := by
  simp [State.undisturbed, State.eager, and_assoc]

/-- No driver call is in progress and none waits. -/
def State.NoCall (s : State) : Prop := s.driver = none ∧ s.calls = []

theorem callStarts_of_noCall {s : State} (h : s.NoCall) : s.callStarts = false := by
  rw [Bool.eq_false_iff]
  intro hs
  obtain ⟨c, rest, hcalls⟩ := exists_call_of_callStarts hs
  cases h.2.symm.trans hcalls

/-- With no driver call the offer is the environment's, and no fault. -/
theorem offer_of_noCall {s : State} (h : s.NoCall) : ∃ o, s.offer = .ok o := by
  cases hv : s.envInputs.inValid with
  | false => exact ⟨none, offer_of_not_inValid hv⟩
  | true => exact ⟨_, offer_of_inValid h.1 hv⟩

/-- The rest of a clock edge starts no call: with no new call issued in its cycle there is still none. -/
theorem clockEdge_noCall {s0 s : State} (h : s.NoCall) (hcall : s0.envInputs.call = none) (offered : Bool) :
    (s0.clockEdge offered s).NoCall := by
  obtain ⟨hdriver, hcalls⟩ := h
  refine ⟨?_, by simp [hcalls, hcall]⟩
  have hnote : (if offered && s0.inReady then s.noteAccepted else s).driver = none := by split <;> simp [hdriver]
  unfold State.clockEdge
  rw [tick_driver, Option.map_eq_none_iff]
  split
  · rw [deliverHead_idle _ hnote]
    exact hnote
  · exact hnote

/-- An undisturbed step with no driver call answers a next state, in which there is still none. -/
theorem step_of_noCall {s : State} (h : s.NoCall) (hu : s.undisturbed = true) : ∃ t, step s = .next t ∧ t.NoCall := by
  obtain ⟨hrst, -, hcall⟩ := (undisturbed_iff s).1 hu
  obtain ⟨o, ho⟩ := offer_of_noCall h
  rw [step_eq_runCycle (callStarts_of_noCall h) hrst, runCycle_eq, ho]
  cases o with
  | none => exact ⟨_, rfl, clockEdge_noCall h hcall false⟩
  | some b =>
    refine ⟨_, rfl, clockEdge_noCall ?_ hcall true⟩
    split
    · exact h
    · exact h

/-- With no call to start, the delivered tile is that of the oldest entry (R283, R284). -/
theorem deliveredTile_of_delivers {s : State} {e : Entry} {q : List Entry} (hq : s.queue = e :: q)
    (hd : s.delivers = true) : s.deliveredTile = some (formatTile e.tile) := by
  obtain ⟨hvalid, -⟩ := (delivers_iff s).1 hd
  simp [State.deliveredTile, callStarts_of_queue_cons hq, hd, outTexels_valid hvalid hq]

/-- Nothing is delivered without an output transfer. -/
theorem deliveredTile_of_not_delivers {s : State} (h : s.delivers = false) : s.deliveredTile = none := by
  simp [State.deliveredTile, h]

/-- In an undisturbed cycle the oldest entry is delivered exactly when it has waited its latency. -/
theorem delivers_iff_due {s : State} {e : Entry} {q : List Entry} (hu : s.undisturbed = true) (hq : s.queue = e :: q) :
    s.delivers = true ↔ e.nAcc + e.lat ≤ s.cycle := by
  obtain ⟨hrst, hready, -⟩ := (undisturbed_iff s).1 hu
  simp [delivers_iff, outValid_iff_due hrst, hready, hq]

/-- Progress (R287), for the entries `q` at the front of `Q` and by induction on the cycles `k` that are left: when `k` lets
each of them wait its latency and then leaves a cycle for each, all are delivered, in order. A cycle either delivers the
oldest of them or still waits for it, and then `k` is not used up by the entries alone. -/
theorem front_delivered {k : Nat} {s : State} {q r : List Entry} (h : s.NoCall) (hq : s.queue = q ++ r)
    (hlen : q.length ≤ k) (hdue : ∀ e ∈ q, e.nAcc + e.lat + q.length ≤ s.cycle + k)
    (hrun : always State.undisturbed k s = true) : q.map (fun e => formatTile e.tile) <+: deliveredTrace k s := by
  induction k generalizing s q r with
  | zero =>
    obtain rfl : q = [] := List.length_eq_zero_iff.1 (Nat.le_zero.1 hlen)
    exact List.nil_prefix
  | succ k ih =>
    cases q with
    | nil => exact List.nil_prefix
    | cons e q =>
      have hu : s.undisturbed = true := (Bool.and_eq_true_iff.1 hrun).1
      obtain ⟨t, ht, hcall⟩ := step_of_noCall h hu
      have hrest := ((always_succ ht).1 hrun).2
      have hqueue := queue_of_step ht ((undisturbed_iff s).1 hu).1
      obtain ⟨hcycle, -⟩ := cycle_out_of_step ht (callStarts_of_noCall h)
      have hdelivers := delivers_iff_due hu hq
      rw [deliveredTrace_succ ht]
      simp only [List.length_cons, List.forall_mem_cons] at hlen hdue
      obtain ⟨hdueHead, hdueTail⟩ := hdue
      cases hd : s.delivers with
      | true =>
        rw [deliveredTile_of_delivers hq hd, Option.toList_some, List.map_cons, List.singleton_append,
          List.cons_prefix_cons]
        rw [hd, if_pos rfl, hq, List.cons_append, List.tail_cons, List.append_assoc] at hqueue
        refine ⟨rfl, ih hcall hqueue (by omega) (fun x hx => ?_) hrest⟩
        have := hdueTail x hx
        omega
      | false =>
        have hwait : ¬ e.nAcc + e.lat ≤ s.cycle := by rw [← hdelivers, hd]; exact Bool.false_ne_true
        rw [deliveredTile_of_not_delivers hd, Option.toList_none, List.nil_append]
        rw [hd, if_neg Bool.false_ne_true, hq, List.append_assoc] at hqueue
        refine ih hcall hqueue (by simp only [List.length_cons]; omega) (fun x hx => ?_) hrest
        rw [hcycle, List.length_cons]
        rcases List.mem_cons.1 hx with rfl | hx
        · omega
        · have := hdueTail x hx
          omega

/-- Settles O52: all of `Q` is its own front part, with the `D` cycles for the latencies and one more for each block. -/
theorem acceptedBlocksAreDelivered : Obligations.AcceptedBlocksAreDelivered := by
  intro D s hdriver hcalls hdue hrun
  refine front_delivered ⟨hdriver, hcalls⟩ (List.append_nil s.queue).symm (Nat.le_add_left _ D) (fun e he => ?_) hrun
  have := hdue e he
  omega

end Sys2Proof.Machine
end
